-- ==== Sys2Proof/Word.lean ====
section
/-! DEFINITION. The byte and the names of the register block.
spec: 00_scope.md R6, R7 (bytes, bit numbering); 10_state.md R20 (eight registers of 8 bits). -/

namespace Sys2Proof

/-- A byte: an unsigned 8-bit value, arithmetic modulo 256 (R6). Bit 0 is the least significant (R7). -/
abbrev Byte := BitVec 8

/-- The eight registers of the register block (R20): bank 1 is R0..R3, bank 2 is R4..R7.
R3 is the program counter and R4 the stack pointer (R22; `Config.pcReg`, `Config.spReg`). -/
inductive Reg where
  | r0 | r1 | r2 | r3 | r4 | r5 | r6 | r7
  deriving DecidableEq, Repr, Inhabited

/-- The index of a register in the block, 0..7 (R20). -/
def Reg.index : Reg → Nat
  | .r0 => 0 | .r1 => 1 | .r2 => 2 | .r3 => 3
  | .r4 => 4 | .r5 => 5 | .r6 => 6 | .r7 => 7

end Sys2Proof
end

