-- ==== Sys2Proof/Syntax.lean ====
section
/-! DEFINITION. The instructions: one constructor for each row of spec/opcode_table.json.
spec: 30_encoding.md R102, R103 (forms and formats), R106 (register fields), R110 (byte operands are used
as they stand), R132 (the pseudo-instructions LD and ST).

In a constructor's name R stands for a register operand, I for an immediate and M for a memory operand,
destination first. `d` and `r` are registers (the spec's Rd, and Rs or Rr), `a` and `b` addresses, `n` an
immediate, `m` a mask, `t` a target. -/

namespace Sys2Proof

/-- The instruction forms of the table: the 91 rows with an encoding of their own, and the
pseudo-instructions `LD` and `ST` (R132). -/
inductive Instr where
  /-- `NOP`, format Z (R213). -/
  | nop
  /-- `STOP`, format Z (R210). -/
  | stop
  /-- `EI`, format Z (R211). -/
  | ei
  /-- `DI`, format Z (R212). -/
  | di
  /-- `RET`, format Z (R208). -/
  | ret
  /-- `RETI`, format Z (R209). -/
  | reti
  /-- `JR t`, format J (R200). -/
  | jr (t : Byte)
  /-- `JZS t`, format J (R201). -/
  | jzs (t : Byte)
  /-- `JZC t`, format J (R202). -/
  | jzc (t : Byte)
  /-- `JCS t`, format J (R203). -/
  | jcs (t : Byte)
  /-- `JCC t`, format J (R204). -/
  | jcc (t : Byte)
  /-- `JNS t`, format J (R205). -/
  | jns (t : Byte)
  /-- `JNC t`, format J (R206). -/
  | jnc (t : Byte)
  /-- `CALL t`, format J (R207). -/
  | call (t : Byte)
  /-- `LDSP n`, format L (R221). -/
  | ldsp (n : Byte)
  /-- `BITS Rr,m`, format BR (R251). -/
  | bitsR (r : Reg) (m : Byte)
  /-- `BITS (a),m`, format BM (R251). -/
  | bitsM (a m : Byte)
  /-- `BITC Rr,m`, format BR (R252). -/
  | bitcR (r : Reg) (m : Byte)
  /-- `BITC (a),m`, format BM (R252). -/
  | bitcM (a m : Byte)
  /-- `BITT Rr,m`, format BR (R253). -/
  | bittR (r : Reg) (m : Byte)
  /-- `BITT (a),m`, format BM (R253). -/
  | bittM (a m : Byte)
  /-- `INC Rr`, format UR (R241). -/
  | incR (r : Reg)
  /-- `INC (a)`, format UM (R241). -/
  | incM (a : Byte)
  /-- `DEC Rr`, format UR (R242). -/
  | decR (r : Reg)
  /-- `DEC (a)`, format UM (R242). -/
  | decM (a : Byte)
  /-- `CLR Rr`, format UR (R243). -/
  | clrR (r : Reg)
  /-- `CLR (a)`, format UM (R243). -/
  | clrM (a : Byte)
  /-- `NOT Rr`, format UR (R244). -/
  | notR (r : Reg)
  /-- `NOT (a)`, format UM (R244). -/
  | notM (a : Byte)
  /-- `SHL Rr`, format UR (R245). -/
  | shlR (r : Reg)
  /-- `SHL (a)`, format UM (R245). -/
  | shlM (a : Byte)
  /-- `SHR Rr`, format UR (R246). -/
  | shrR (r : Reg)
  /-- `SHR (a)`, format UM (R246). -/
  | shrM (a : Byte)
  /-- `ASR Rr`, format UR (R247). -/
  | asrR (r : Reg)
  /-- `ASR (a)`, format UM (R247). -/
  | asrM (a : Byte)
  /-- `TST Rr`, format UR (R240). -/
  | tstR (r : Reg)
  /-- `TST (a)`, format UM (R240). -/
  | tstM (a : Byte)
  /-- `MOV Rd,Rs`, format T-0 (R220). -/
  | movRR (d r : Reg)
  /-- `MOV Rd,n`, format T-1 (R220). -/
  | movRI (d : Reg) (n : Byte)
  /-- `MOV Rd,(a)`, format T-2 (R220). -/
  | movRM (d : Reg) (a : Byte)
  /-- `MOV (a),Rs`, format T-3 (R220). -/
  | movMR (a : Byte) (r : Reg)
  /-- `MOV (a),(b)`, format T-4 (R220). -/
  | movMM (a b : Byte)
  /-- `MOV (a),n`, format T-5 (R220). -/
  | movMI (a n : Byte)
  /-- `ADD Rd,Rs`, format T-0 (R231). -/
  | addRR (d r : Reg)
  /-- `ADD Rd,n`, format T-1 (R231). -/
  | addRI (d : Reg) (n : Byte)
  /-- `ADD Rd,(a)`, format T-2 (R231). -/
  | addRM (d : Reg) (a : Byte)
  /-- `ADD (a),Rs`, format T-3 (R231). -/
  | addMR (a : Byte) (r : Reg)
  /-- `ADD (a),(b)`, format T-4 (R231). -/
  | addMM (a b : Byte)
  /-- `ADD (a),n`, format T-5 (R231). -/
  | addMI (a n : Byte)
  /-- `ADC Rd,Rs`, format T-0 (R232). -/
  | adcRR (d r : Reg)
  /-- `ADC Rd,n`, format T-1 (R232). -/
  | adcRI (d : Reg) (n : Byte)
  /-- `ADC Rd,(a)`, format T-2 (R232). -/
  | adcRM (d : Reg) (a : Byte)
  /-- `ADC (a),Rs`, format T-3 (R232). -/
  | adcMR (a : Byte) (r : Reg)
  /-- `ADC (a),(b)`, format T-4 (R232). -/
  | adcMM (a b : Byte)
  /-- `ADC (a),n`, format T-5 (R232). -/
  | adcMI (a n : Byte)
  /-- `SUB Rd,Rs`, format T-0 (R233). -/
  | subRR (d r : Reg)
  /-- `SUB Rd,n`, format T-1 (R233). -/
  | subRI (d : Reg) (n : Byte)
  /-- `SUB Rd,(a)`, format T-2 (R233). -/
  | subRM (d : Reg) (a : Byte)
  /-- `SUB (a),Rs`, format T-3 (R233). -/
  | subMR (a : Byte) (r : Reg)
  /-- `SUB (a),(b)`, format T-4 (R233). -/
  | subMM (a b : Byte)
  /-- `SUB (a),n`, format T-5 (R233). -/
  | subMI (a n : Byte)
  /-- `SBC Rd,Rs`, format T-0 (R234). -/
  | sbcRR (d r : Reg)
  /-- `SBC Rd,n`, format T-1 (R234). -/
  | sbcRI (d : Reg) (n : Byte)
  /-- `SBC Rd,(a)`, format T-2 (R234). -/
  | sbcRM (d : Reg) (a : Byte)
  /-- `SBC (a),Rs`, format T-3 (R234). -/
  | sbcMR (a : Byte) (r : Reg)
  /-- `SBC (a),(b)`, format T-4 (R234). -/
  | sbcMM (a b : Byte)
  /-- `SBC (a),n`, format T-5 (R234). -/
  | sbcMI (a n : Byte)
  /-- `AND Rd,Rs`, format T-0 (R235). -/
  | andRR (d r : Reg)
  /-- `AND Rd,n`, format T-1 (R235). -/
  | andRI (d : Reg) (n : Byte)
  /-- `AND Rd,(a)`, format T-2 (R235). -/
  | andRM (d : Reg) (a : Byte)
  /-- `AND (a),Rs`, format T-3 (R235). -/
  | andMR (a : Byte) (r : Reg)
  /-- `AND (a),(b)`, format T-4 (R235). -/
  | andMM (a b : Byte)
  /-- `AND (a),n`, format T-5 (R235). -/
  | andMI (a n : Byte)
  /-- `OR Rd,Rs`, format T-0 (R236). -/
  | orRR (d r : Reg)
  /-- `OR Rd,n`, format T-1 (R236). -/
  | orRI (d : Reg) (n : Byte)
  /-- `OR Rd,(a)`, format T-2 (R236). -/
  | orRM (d : Reg) (a : Byte)
  /-- `OR (a),Rs`, format T-3 (R236). -/
  | orMR (a : Byte) (r : Reg)
  /-- `OR (a),(b)`, format T-4 (R236). -/
  | orMM (a b : Byte)
  /-- `OR (a),n`, format T-5 (R236). -/
  | orMI (a n : Byte)
  /-- `XOR Rd,Rs`, format T-0 (R237). -/
  | xorRR (d r : Reg)
  /-- `XOR Rd,n`, format T-1 (R237). -/
  | xorRI (d : Reg) (n : Byte)
  /-- `XOR Rd,(a)`, format T-2 (R237). -/
  | xorRM (d : Reg) (a : Byte)
  /-- `XOR (a),Rs`, format T-3 (R237). -/
  | xorMR (a : Byte) (r : Reg)
  /-- `XOR (a),(b)`, format T-4 (R237). -/
  | xorMM (a b : Byte)
  /-- `XOR (a),n`, format T-5 (R237). -/
  | xorMI (a n : Byte)
  /-- `CMP Rd,Rs`, format T-0 (R238). -/
  | cmpRR (d r : Reg)
  /-- `CMP Rd,n`, format T-1 (R238). -/
  | cmpRI (d : Reg) (n : Byte)
  /-- `CMP Rd,(a)`, format T-2 (R238). -/
  | cmpRM (d : Reg) (a : Byte)
  /-- `CMP (a),Rs`, format T-3 (R238). -/
  | cmpMR (a : Byte) (r : Reg)
  /-- `CMP (a),(b)`, format T-4 (R238). -/
  | cmpMM (a b : Byte)
  /-- `CMP (a),n`, format T-5 (R238). -/
  | cmpMI (a n : Byte)
  /-- `LD Rd,(a)`, format T-2 (R222; pseudo-instruction, R132). -/
  | ld (d : Reg) (a : Byte)
  /-- `ST (a),Rs`, format T-3 (R223; pseudo-instruction, R132). -/
  | st (a : Byte) (r : Reg)
  deriving DecidableEq, Repr, Inhabited

/-- The core instruction a pseudo-instruction stands for; every other instruction is its own (R132). -/
def Instr.core : Instr → Instr
  | .ld d a => .movRM d a
  | .st a r => .movMR a r
  | i => i

/-- The length in bytes of each form (R103, R114). -/
def Instr.length : Instr → Nat
  | .nop | .stop | .ei | .di | .ret | .reti | .incR _ | .decR _ | .clrR _ | .notR _ | .shlR _ | .shrR _
  | .asrR _ | .tstR _ => 1
  | .jr _ | .jzs _ | .jzc _ | .jcs _ | .jcc _ | .jns _ | .jnc _ | .call _ | .ldsp _ | .bitsR _ _ | .bitcR _ _
  | .bittR _ _ | .incM _ | .decM _ | .clrM _ | .notM _ | .shlM _ | .shrM _ | .asrM _ | .tstM _ | .movRR _ _
  | .addRR _ _ | .adcRR _ _ | .subRR _ _ | .sbcRR _ _ | .andRR _ _ | .orRR _ _ | .xorRR _ _ | .cmpRR _ _ => 2
  | .bitsM _ _ | .bitcM _ _ | .bittM _ _ | .movRI _ _ | .movRM _ _ | .movMR _ _ | .movMM _ _ | .movMI _ _
  | .addRI _ _ | .addRM _ _ | .addMR _ _ | .addMM _ _ | .addMI _ _ | .adcRI _ _ | .adcRM _ _ | .adcMR _ _
  | .adcMM _ _ | .adcMI _ _ | .subRI _ _ | .subRM _ _ | .subMR _ _ | .subMM _ _ | .subMI _ _ | .sbcRI _ _
  | .sbcRM _ _ | .sbcMR _ _ | .sbcMM _ _ | .sbcMI _ _ | .andRI _ _ | .andRM _ _ | .andMR _ _ | .andMM _ _
  | .andMI _ _ | .orRI _ _ | .orRM _ _ | .orMR _ _ | .orMM _ _ | .orMI _ _ | .xorRI _ _ | .xorRM _ _
  | .xorMR _ _ | .xorMM _ _ | .xorMI _ _ | .cmpRI _ _ | .cmpRM _ _ | .cmpMR _ _ | .cmpMM _ _ | .cmpMI _ _
  | .ld _ _ | .st _ _ => 3

/-- The mnemonic, as R102 and R128 spell it. -/
def Instr.mnemonic : Instr → String
  | .nop => "NOP"
  | .stop => "STOP"
  | .ei => "EI"
  | .di => "DI"
  | .ret => "RET"
  | .reti => "RETI"
  | .jr _ => "JR"
  | .jzs _ => "JZS"
  | .jzc _ => "JZC"
  | .jcs _ => "JCS"
  | .jcc _ => "JCC"
  | .jns _ => "JNS"
  | .jnc _ => "JNC"
  | .call _ => "CALL"
  | .ldsp _ => "LDSP"
  | .bitsR _ _ | .bitsM _ _ => "BITS"
  | .bitcR _ _ | .bitcM _ _ => "BITC"
  | .bittR _ _ | .bittM _ _ => "BITT"
  | .incR _ | .incM _ => "INC"
  | .decR _ | .decM _ => "DEC"
  | .clrR _ | .clrM _ => "CLR"
  | .notR _ | .notM _ => "NOT"
  | .shlR _ | .shlM _ => "SHL"
  | .shrR _ | .shrM _ => "SHR"
  | .asrR _ | .asrM _ => "ASR"
  | .tstR _ | .tstM _ => "TST"
  | .movRR _ _ | .movRI _ _ | .movRM _ _ | .movMR _ _ | .movMM _ _ | .movMI _ _ => "MOV"
  | .addRR _ _ | .addRI _ _ | .addRM _ _ | .addMR _ _ | .addMM _ _ | .addMI _ _ => "ADD"
  | .adcRR _ _ | .adcRI _ _ | .adcRM _ _ | .adcMR _ _ | .adcMM _ _ | .adcMI _ _ => "ADC"
  | .subRR _ _ | .subRI _ _ | .subRM _ _ | .subMR _ _ | .subMM _ _ | .subMI _ _ => "SUB"
  | .sbcRR _ _ | .sbcRI _ _ | .sbcRM _ _ | .sbcMR _ _ | .sbcMM _ _ | .sbcMI _ _ => "SBC"
  | .andRR _ _ | .andRI _ _ | .andRM _ _ | .andMR _ _ | .andMM _ _ | .andMI _ _ => "AND"
  | .orRR _ _ | .orRI _ _ | .orRM _ _ | .orMR _ _ | .orMM _ _ | .orMI _ _ => "OR"
  | .xorRR _ _ | .xorRI _ _ | .xorRM _ _ | .xorMR _ _ | .xorMM _ _ | .xorMI _ _ => "XOR"
  | .cmpRR _ _ | .cmpRI _ _ | .cmpRM _ _ | .cmpMR _ _ | .cmpMM _ _ | .cmpMI _ _ => "CMP"
  | .ld _ _ => "LD"
  | .st _ _ => "ST"

/-- The registers an instruction names in its operand fields (R111), destination first. -/
def Instr.namedRegs : Instr → List Reg
  | .nop | .stop | .ei | .di | .ret | .reti | .jr _ | .jzs _ | .jzc _ | .jcs _ | .jcc _ | .jns _ | .jnc _
  | .call _ | .ldsp _ | .bitsM _ _ | .bitcM _ _ | .bittM _ _ | .incM _ | .decM _ | .clrM _ | .notM _ | .shlM _
  | .shrM _ | .asrM _ | .tstM _ | .movMM _ _ | .movMI _ _ | .addMM _ _ | .addMI _ _ | .adcMM _ _ | .adcMI _ _
  | .subMM _ _ | .subMI _ _ | .sbcMM _ _ | .sbcMI _ _ | .andMM _ _ | .andMI _ _ | .orMM _ _ | .orMI _ _
  | .xorMM _ _ | .xorMI _ _ | .cmpMM _ _ | .cmpMI _ _ => []
  | .bitsR r _ | .bitcR r _ | .bittR r _ | .incR r | .decR r | .clrR r | .notR r | .shlR r | .shrR r | .asrR r
  | .tstR r | .movMR _ r | .addMR _ r | .adcMR _ r | .subMR _ r | .sbcMR _ r | .andMR _ r | .orMR _ r
  | .xorMR _ r | .cmpMR _ r | .st _ r => [r]
  | .movRR d r | .addRR d r | .adcRR d r | .subRR d r | .sbcRR d r | .andRR d r | .orRR d r | .xorRR d r
  | .cmpRR d r => [d, r]
  | .movRI d _ | .movRM d _ | .addRI d _ | .addRM d _ | .adcRI d _ | .adcRM d _ | .subRI d _ | .subRM d _
  | .sbcRI d _ | .sbcRM d _ | .andRI d _ | .andRM d _ | .orRI d _ | .orRM d _ | .xorRI d _ | .xorRM d _
  | .cmpRI d _ | .cmpRM d _ | .ld d _ => [d]

end Sys2Proof
end

