-- ==== Sys2Proof/WellFormed.lean ====
section
/-! DEFINITION. Which instruction terms an encoding exists for.
spec: 30_encoding.md R106 (a register field names R0..R3; "R4..R7 cannot be named by any instruction"),
R104 (every other operand is one whole byte, so its type is its check). -/

namespace Sys2Proof

/-- A register that a 2-bit register field can name (R106): the registers of bank 1. -/
def Reg.nameable : Reg → Bool
  | .r0 | .r1 | .r2 | .r3 => true
  | .r4 | .r5 | .r6 | .r7 => false

/-- An instruction is well formed when every register it names is R0..R3 (R106, R128). -/
def Instr.wellFormed (i : Instr) : Bool := i.namedRegs.all Reg.nameable

/-- `Instr.wellFormed` as a proposition. -/
abbrev Instr.WellFormed (i : Instr) : Prop := i.wellFormed = true

end Sys2Proof
end

