-- ==== Sys2Proof/Decode.lean ====
section
/-! DEFINITION. Decoding instruction bytes, and encoding instructions.
spec: 30_encoding.md R102 (the opcode map), R103 (formats), R105 to R109 (the fields of byte 0), R111 (operands),
R112 (illegal bytes), R114 (lengths), R115 (decoding), R132 (LD and ST have no encoding of their own).

The decoder reads byte 0 by the fields the rules name. Operand bytes are never checked and the bits marked x are
ignored (R103, R106, R112). -/

namespace Sys2Proof

/-- The register a 2-bit field names: 0 is R0, 1 is R1, 2 is R2, 3 is R3 (R106). -/
def Reg.ofField (v : BitVec 2) : Reg :=
  match v.toNat with
  | 0 => .r0
  | 1 => .r1
  | 2 => .r2
  | _ => .r3

/-- The 2-bit field that names a register (R106). R4..R7 have none; `Instr.wellFormed` excludes them, and they
are sent to their low two bits. -/
def Reg.toField : Reg → BitVec 2
  | .r0 | .r4 => 0#2
  | .r1 | .r5 => 1#2
  | .r2 | .r6 => 2#2
  | .r3 | .r7 => 3#2

/-- The field of bits `lo + w - 1` down to `lo` of a byte (R7). -/
def bits (v : Byte) (lo w : Nat) : BitVec w := v.extractLsb' lo w

/-- The register named by bits 1:0 of a byte. -/
def lowReg (v : Byte) : Reg := Reg.ofField (bits v 0 2)

/-- The register named by bits 3:2 of a byte (format T-0). -/
def highReg (v : Byte) : Reg := Reg.ofField (bits v 2 2)

/-- Formats Z and J, byte 0 = `0000 ‖ j ‖ c[2:0]` (R109). -/
def decodeControl (b0 b1 : Byte) : Option Instr :=
  match (bits b0 3 1).toNat, (bits b0 0 3).toNat with
  | 0, 0 => some .nop
  | 0, 1 => some .stop
  | 0, 2 => some .ei
  | 0, 3 => some .di
  | 0, 4 => some .ret
  | 0, 5 => some .reti
  | 1, 0 => some (.jr b1)
  | 1, 1 => some (.jzs b1)
  | 1, 2 => some (.jzc b1)
  | 1, 3 => some (.jcs b1)
  | 1, 4 => some (.jcc b1)
  | 1, 5 => some (.jns b1)
  | 1, 6 => some (.jnc b1)
  | 1, 7 => some (.call b1)
  | _, _ => none

/-- Formats BR and BM, byte 0 = `001 ‖ f ‖ k[1:0] ‖ r[1:0]`; in the memory form r must be 00 (R108). -/
def decodeBit (b0 b1 b2 : Byte) : Option Instr :=
  match (bits b0 4 1).toNat, (bits b0 2 2).toNat, (bits b0 0 2).toNat with
  | 0, 0, _ => some (.bitsR (lowReg b0) b1)
  | 0, 1, _ => some (.bitcR (lowReg b0) b1)
  | 0, 2, _ => some (.bittR (lowReg b0) b1)
  | 1, 0, 0 => some (.bitsM b1 b2)
  | 1, 1, 0 => some (.bitcM b1 b2)
  | 1, 2, 0 => some (.bittM b1 b2)
  | _, _, _ => none

/-- Formats UR and UM, byte 0 = `01 ‖ u[2:0] ‖ f ‖ r[1:0]`; in the memory form r must be 00 (R107). -/
def decodeUnary (b0 b1 : Byte) : Option Instr :=
  match (bits b0 2 1).toNat, (bits b0 3 3).toNat, (bits b0 0 2).toNat with
  | 0, 0, _ => some (.incR (lowReg b0))
  | 0, 1, _ => some (.decR (lowReg b0))
  | 0, 2, _ => some (.clrR (lowReg b0))
  | 0, 3, _ => some (.notR (lowReg b0))
  | 0, 4, _ => some (.shlR (lowReg b0))
  | 0, 5, _ => some (.shrR (lowReg b0))
  | 0, 6, _ => some (.asrR (lowReg b0))
  | 0, 7, _ => some (.tstR (lowReg b0))
  | 1, 0, 0 => some (.incM b1)
  | 1, 1, 0 => some (.decM b1)
  | 1, 2, 0 => some (.clrM b1)
  | 1, 3, 0 => some (.notM b1)
  | 1, 4, 0 => some (.shlM b1)
  | 1, 5, 0 => some (.shrM b1)
  | 1, 6, 0 => some (.asrM b1)
  | 1, 7, 0 => some (.tstM b1)
  | _, _, _ => none

/-- The six addressing modes of format T for one operation, given its six forms (R103, R105, R111). -/
def decodeModes (rr : Reg → Reg → Instr) (ri rm : Reg → Byte → Instr) (mr : Byte → Reg → Instr)
    (mm mi : Byte → Byte → Instr) (mode : Nat) (b1 b2 : Byte) : Option Instr :=
  match mode with
  | 0 => some (rr (highReg b1) (lowReg b1))
  | 1 => some (ri (lowReg b1) b2)
  | 2 => some (rm (lowReg b1) b2)
  | 3 => some (mr b1 (lowReg b2))
  | 4 => some (mm b1 b2)
  | 5 => some (mi b1 b2)
  | _ => none

/-- Format T, byte 0 = `1 ‖ o[3:0] ‖ m[2:0]` (R105). -/
def decodeTwo (b0 b1 b2 : Byte) : Option Instr :=
  let mode := (bits b0 0 3).toNat
  match (bits b0 3 4).toNat with
  | 0 => decodeModes .movRR .movRI .movRM .movMR .movMM .movMI mode b1 b2
  | 1 => decodeModes .addRR .addRI .addRM .addMR .addMM .addMI mode b1 b2
  | 2 => decodeModes .adcRR .adcRI .adcRM .adcMR .adcMM .adcMI mode b1 b2
  | 3 => decodeModes .subRR .subRI .subRM .subMR .subMM .subMI mode b1 b2
  | 4 => decodeModes .sbcRR .sbcRI .sbcRM .sbcMR .sbcMM .sbcMI mode b1 b2
  | 5 => decodeModes .andRR .andRI .andRM .andMR .andMM .andMI mode b1 b2
  | 6 => decodeModes .orRR .orRI .orRM .orMR .orMM .orMI mode b1 b2
  | 7 => decodeModes .xorRR .xorRI .xorRM .xorMR .xorMM .xorMI mode b1 b2
  | 8 => decodeModes .cmpRR .cmpRI .cmpRM .cmpMR .cmpMM .cmpMI mode b1 b2
  | _ => none

/-- The instruction whose bytes are `b0`, `b1`, `b2`; a shorter instruction does not look at the bytes it does not
have. `none` for an illegal byte 0 (R112, R115). -/
def decodeInstr (b0 b1 b2 : Byte) : Option Instr :=
  if (bits b0 7 1).toNat = 1 then decodeTwo b0 b1 b2
  else if (bits b0 6 2).toNat = 1 then decodeUnary b0 b1
  else if (bits b0 5 3).toNat = 1 then decodeBit b0 b1 b2
  else if b0 = 0x10#8 then some (.ldsp b1)
  else if (bits b0 4 4).toNat = 0 then decodeControl b0 b1
  else none

/-- `Length(b0)` of R114, `none` for an illegal byte 0. -/
def opcodeLength (b0 : Byte) : Option Nat :=
  let v := b0.toNat
  let low := (bits b0 0 3).toNat
  if v ≤ 0x05 then some 1
  else if 0x08 ≤ v ∧ v ≤ 0x10 then some 2
  else if 0x20 ≤ v ∧ v ≤ 0x2B then some 2
  else if v = 0x30 ∨ v = 0x34 ∨ v = 0x38 then some 3
  else if 0x40 ≤ v ∧ v ≤ 0x7F then
    if low ≤ 3 then some 1 else if low = 4 then some 2 else none
  else if 0x80 ≤ v ∧ v ≤ 0xC7 then
    if low = 0 then some 2 else if low ≤ 5 then some 3 else none
  else none

/-- Why a list of bytes does not begin with an instruction. -/
inductive DecodeError where
  /-- Byte 0 is one of the 132 illegal values (R112). -/
  | illegalOpcode (b0 : Byte)
  /-- The list ends before the instruction does: it needs `needed` bytes. -/
  | truncated (needed : Nat)
  deriving DecidableEq, Repr

/-- The first instruction of a list of bytes and the bytes after it. -/
def decode : List Byte → Except DecodeError (Instr × List Byte)
  | [] => .error (.truncated 1)
  | b0 :: rest =>
    match opcodeLength b0, decodeInstr b0 (rest.getD 0 0) (rest.getD 1 0) with
    | some n, some i => if rest.length + 1 < n then .error (.truncated n) else .ok (i, rest.drop (n - 1))
    | _, _ => .error (.illegalOpcode b0)

/-- The byte of the number `w` whose bits are 8k+7 down to 8k. -/
def byteOf (w k : Nat) : Byte := BitVec.ofNat 8 (w >>> (8 * k))

/-- The instruction the decoder reads from the low `nbits` bits of `w`, byte 0 lowest (R100, R104); the bits from
`nbits` up are 0. -/
def decodeTableWord (nbits w : Nat) : Option Instr :=
  let v := w % 2 ^ nbits
  match decode [byteOf v 0, byteOf v 1, byteOf v 2] with
  | .ok (i, _) => some i
  | .error _ => none

/-- Byte 0 of formats Z and J (R109). -/
def opControl (j : BitVec 1) (c : BitVec 3) : Byte := 0#4 ++ j ++ c

/-- Byte 0 of formats BR and BM (R108). -/
def opBit (f : BitVec 1) (k r : BitVec 2) : Byte := 1#3 ++ f ++ k ++ r

/-- Byte 0 of formats UR and UM (R107). -/
def opUnary (u : BitVec 3) (f : BitVec 1) (r : BitVec 2) : Byte := 1#2 ++ u ++ f ++ r

/-- Byte 0 of format T (R105). -/
def opTwo (o : BitVec 4) (m : BitVec 3) : Byte := 1#1 ++ o ++ m

/-- A byte whose bits 1:0 name a register, the ignored bits 0 (R103). -/
def regByte (r : Reg) : Byte := 0#6 ++ r.toField

/-- Byte 1 of format T-0: destination at bits 3:2, source at bits 1:0, the ignored bits 0 (R103). -/
def regPairByte (d r : Reg) : Byte := 0#4 ++ d.toField ++ r.toField

/-- Format T-0. -/
def encodeRR (o : BitVec 4) (d r : Reg) : List Byte := [opTwo o 0, regPairByte d r]
/-- Format T-1. -/
def encodeRI (o : BitVec 4) (d : Reg) (n : Byte) : List Byte := [opTwo o 1, regByte d, n]
/-- Format T-2. -/
def encodeRM (o : BitVec 4) (d : Reg) (a : Byte) : List Byte := [opTwo o 2, regByte d, a]
/-- Format T-3. -/
def encodeMR (o : BitVec 4) (a : Byte) (r : Reg) : List Byte := [opTwo o 3, a, regByte r]
/-- Format T-4. -/
def encodeMM (o : BitVec 4) (a b : Byte) : List Byte := [opTwo o 4, a, b]
/-- Format T-5. -/
def encodeMI (o : BitVec 4) (a n : Byte) : List Byte := [opTwo o 5, a, n]

/-- The bytes of a well-formed instruction, the ignored bits 0 as the assembler emits them (R103). A
pseudo-instruction has the bytes of its core instruction (R132). -/
def encode : Instr → List Byte
  | .nop => [opControl 0 0]
  | .stop => [opControl 0 1]
  | .ei => [opControl 0 2]
  | .di => [opControl 0 3]
  | .ret => [opControl 0 4]
  | .reti => [opControl 0 5]
  | .jr t => [opControl 1 0, t]
  | .jzs t => [opControl 1 1, t]
  | .jzc t => [opControl 1 2, t]
  | .jcs t => [opControl 1 3, t]
  | .jcc t => [opControl 1 4, t]
  | .jns t => [opControl 1 5, t]
  | .jnc t => [opControl 1 6, t]
  | .call t => [opControl 1 7, t]
  | .ldsp n => [0x10#8, n]
  | .bitsR r m => [opBit 0 0 r.toField, m]
  | .bitsM a m => [opBit 1 0 0, a, m]
  | .bitcR r m => [opBit 0 1 r.toField, m]
  | .bitcM a m => [opBit 1 1 0, a, m]
  | .bittR r m => [opBit 0 2 r.toField, m]
  | .bittM a m => [opBit 1 2 0, a, m]
  | .incR r => [opUnary 0 0 r.toField]
  | .incM a => [opUnary 0 1 0, a]
  | .decR r => [opUnary 1 0 r.toField]
  | .decM a => [opUnary 1 1 0, a]
  | .clrR r => [opUnary 2 0 r.toField]
  | .clrM a => [opUnary 2 1 0, a]
  | .notR r => [opUnary 3 0 r.toField]
  | .notM a => [opUnary 3 1 0, a]
  | .shlR r => [opUnary 4 0 r.toField]
  | .shlM a => [opUnary 4 1 0, a]
  | .shrR r => [opUnary 5 0 r.toField]
  | .shrM a => [opUnary 5 1 0, a]
  | .asrR r => [opUnary 6 0 r.toField]
  | .asrM a => [opUnary 6 1 0, a]
  | .tstR r => [opUnary 7 0 r.toField]
  | .tstM a => [opUnary 7 1 0, a]
  | .movRR d r => encodeRR 0 d r
  | .movRI d n => encodeRI 0 d n
  | .movRM d a => encodeRM 0 d a
  | .movMR a r => encodeMR 0 a r
  | .movMM a b => encodeMM 0 a b
  | .movMI a n => encodeMI 0 a n
  | .addRR d r => encodeRR 1 d r
  | .addRI d n => encodeRI 1 d n
  | .addRM d a => encodeRM 1 d a
  | .addMR a r => encodeMR 1 a r
  | .addMM a b => encodeMM 1 a b
  | .addMI a n => encodeMI 1 a n
  | .adcRR d r => encodeRR 2 d r
  | .adcRI d n => encodeRI 2 d n
  | .adcRM d a => encodeRM 2 d a
  | .adcMR a r => encodeMR 2 a r
  | .adcMM a b => encodeMM 2 a b
  | .adcMI a n => encodeMI 2 a n
  | .subRR d r => encodeRR 3 d r
  | .subRI d n => encodeRI 3 d n
  | .subRM d a => encodeRM 3 d a
  | .subMR a r => encodeMR 3 a r
  | .subMM a b => encodeMM 3 a b
  | .subMI a n => encodeMI 3 a n
  | .sbcRR d r => encodeRR 4 d r
  | .sbcRI d n => encodeRI 4 d n
  | .sbcRM d a => encodeRM 4 d a
  | .sbcMR a r => encodeMR 4 a r
  | .sbcMM a b => encodeMM 4 a b
  | .sbcMI a n => encodeMI 4 a n
  | .andRR d r => encodeRR 5 d r
  | .andRI d n => encodeRI 5 d n
  | .andRM d a => encodeRM 5 d a
  | .andMR a r => encodeMR 5 a r
  | .andMM a b => encodeMM 5 a b
  | .andMI a n => encodeMI 5 a n
  | .orRR d r => encodeRR 6 d r
  | .orRI d n => encodeRI 6 d n
  | .orRM d a => encodeRM 6 d a
  | .orMR a r => encodeMR 6 a r
  | .orMM a b => encodeMM 6 a b
  | .orMI a n => encodeMI 6 a n
  | .xorRR d r => encodeRR 7 d r
  | .xorRI d n => encodeRI 7 d n
  | .xorRM d a => encodeRM 7 d a
  | .xorMR a r => encodeMR 7 a r
  | .xorMM a b => encodeMM 7 a b
  | .xorMI a n => encodeMI 7 a n
  | .cmpRR d r => encodeRR 8 d r
  | .cmpRI d n => encodeRI 8 d n
  | .cmpRM d a => encodeRM 8 d a
  | .cmpMR a r => encodeMR 8 a r
  | .cmpMM a b => encodeMM 8 a b
  | .cmpMI a n => encodeMI 8 a n
  | .ld d a => encodeRM 0 d a
  | .st a r => encodeMR 0 a r

end Sys2Proof
end

