-- ==== Sys2Proof/Config.lean ====
section
/-! DEFINITION. What an implementation of the machine fixes.
spec: 00_scope.md R5 (the table of parameters); 40_datapath.md R140 to R147, R161, R163 (the M-level parameters). -/

namespace Sys2Proof

/-- `PC_INDEX` = 3: the program counter is R3 (R5, 10_state.md R22). -/
def Config.pcReg : Reg := .r3

/-- `SP_INDEX` = 4: the stack pointer is R4 (R5, 10_state.md R22). -/
def Config.spReg : Reg := .r4

/-- `ISR_VECTOR` (R5, 60_exceptions.md R312). -/
def Config.isrVector : Byte := 0x02#8

/-- `KEY_BIT`: the key is bit 0 of input register 0xFC (R5, 60_exceptions.md R307). -/
def Config.keyBit : Nat := 0

/-- The number of RAM bytes, at 0x00..0xEF (R5, 20_memory.md R52). -/
def Config.ramSize : Nat := 0xF0

/-- `STACKSIZE`: one of 0, 16, 32, 48, 64 (R5, 20_memory.md R69). -/
inductive StackSize where
  | s0 | s16 | s32 | s48 | s64
  deriving DecidableEq, Repr, Inhabited

/-- The number of bytes a `STACKSIZE` stands for. -/
def StackSize.bytes : StackSize → Nat
  | .s0 => 0 | .s16 => 16 | .s32 => 32 | .s48 => 48 | .s64 => 64

/-- The two register ports of the datapath (10_state.md R21). -/
inductive Port where
  | a | b
  deriving DecidableEq, Repr, Inhabited

/-- The sixteen ALU functions, in the order of 40_datapath.md R145. -/
inductive AluFn where
  | add | sub | addc | subc | and | or | xor | notA
  | shl | shr | asr | passA | incA | decA | passB | zero
  deriving DecidableEq, Repr, Inhabited

/-- The kinds of next microcode address (40_datapath.md R161). -/
inductive MacKind where
  | next | jump | jumpIfF | jumpIfNotF | fetch
  deriving DecidableEq, Repr, Inhabited

/-- The decoded control word, field by field (40_datapath.md R143; R142 makes HALT 1 bit and NA 7 bits). -/
structure ControlWord where
  mac : BitVec 4
  alu : BitVec 4
  a8 : Bool
  bsel : BitVec 3
  malus : BitVec 2
  rgaa : BitVec 2
  rgab : BitVec 2
  rgwe : Bool
  rgws : Bool
  chflg : Bool
  busen : Bool
  buswr : Bool
  cond : Bool
  halt : Bool
  na : BitVec 7
  deriving DecidableEq, Repr, Inhabited

/-- The M-level parameters no source gives (R5: OPEN). Every M-level definition takes them as an
argument, as R4 says, so a statement about the M-level holds for every value of them. -/
structure MicroParams where
  /-- `MICROCODE_ROM`: 512 words of 25 bits (R140). -/
  rom : BitVec 9 → BitVec 25
  /-- `FIELD_LAYOUT`: how a ROM word is read into the record (R142). -/
  layout : BitVec 25 → ControlWord
  /-- `OPC_ENTRY`: the 7-bit micro-state entered for an opcode byte (R163). -/
  opcEntry : Byte → BitVec 7
  /-- `OPCODE_VALID`: the opcode bytes the ROM decodes (R164). -/
  opcodeValid : Byte → Bool
  /-- `REG_SELECT`: a port's 2-bit selector and the opcode latch give a register (R147). -/
  regSelect : Port → BitVec 2 → Byte → Reg
  /-- `ALU_CODE`: the ALU function of a 4-bit code (R145). -/
  aluCode : BitVec 4 → AluFn
  /-- `MAC_CODE`: the next-address kind of a 4-bit code, `none` for a reserved code (R161). -/
  macCode : BitVec 4 → Option MacKind
  deriving Inhabited

/-- The parameters of the original machine: a constant with no body, so that nothing can be proved of
its value (R5 OPEN; log entry 7). -/
opaque Config.originalMicro : MicroParams

end Sys2Proof
end

