-- ==== Sys2Proof/Machine/State.lean ====
section
/-! DEFINITION. The machine's state, its value after reset, and the reasons a step can stop.
spec: 10_state.md R20 to R38 (every piece of state and its reset value); 60_exceptions.md R301 (the runtime
errors); 00_scope.md R9 (run states).

State is plain data. The fields of `BootConfig` are fixed for a run (10_state.md R37); they stand here
because `step` takes nothing but a state (log entry 2). -/

namespace Sys2Proof.Machine

/-- RAM as pairs of an address and a byte: addresses strictly rising and below 0xF0, no byte 0x00 listed. An
unlisted address reads as 0x00 (`Memory.read`), which is what the image puts in every byte it does not fill
(30_encoding.md R130, 70_reset_and_hazards.md R340). -/
abbrev Memory := List Host.Cell

/-- The register block R0..R7 (10_state.md R20). R3 is the PC and R4 the SP (R22). -/
structure RegBlock where
  r0 : Byte
  r1 : Byte
  r2 : Byte
  r3 : Byte
  r4 : Byte
  r5 : Byte
  r6 : Byte
  r7 : Byte
  deriving DecidableEq, Repr

/-- The flag register (10_state.md R25). -/
structure Flags where
  cf : Bool
  zf : Bool
  nf : Bool
  ief : Bool
  deriving DecidableEq, Repr

/-- The four main-board ports, at 0xFC..0xFF (10_state.md R32, R33). -/
inductive IoPort where
  | fc | fd | fe | ff
  deriving DecidableEq, Repr

/-- One byte for each main-board port. -/
structure PortBytes where
  fc : Byte
  fd : Byte
  fe : Byte
  ff : Byte
  deriving DecidableEq, Repr

/-- The interrupt sources (60_exceptions.md R307). -/
inductive Source where
  | key | uio1 | uio2 | uio3
  deriving DecidableEq, Repr

/-- One bit for each interrupt source (10_state.md R35). -/
structure SourceBits where
  key : Bool
  uio1 : Bool
  uio2 : Bool
  uio3 : Bool
  deriving DecidableEq, Repr

/-- The inputs the host owns (10_state.md R33). The core never writes them. TEMP is a real number of volts in the
spec; here it is a rational number (log entry 3; DESIGN CHOICE, safe). -/
structure Inputs where
  inp : PortBytes
  irg : Byte
  temp : Rat
  uioExt : BitVec 3
  j1 : Bool
  j2 : Bool
  deriving DecidableEq, Repr

/-- Which half cycle the next tick performs (10_state.md R34). -/
inductive Phase where
  | read | commit
  deriving DecidableEq, Repr

/-- The M-level state (10_state.md R34): the microcode program counter, the opcode latch, the phase and the
latches a read half leaves for its commit half. -/
structure MicroState where
  mp : BitVec 9
  opl : Byte
  phase : Phase
  ia : Reg
  ib : Reg
  ra : Byte
  rb : Byte
  d : Byte
  f : Byte
  c : Bool
  deriving DecidableEq, Repr

/-- The runtime errors of 60_exceptions.md R301, with the info each records. They are reasons of the run state
`ErrorHalted`: a step that raises one answers a NEXT state whose run state holds it (R302), because the spec
says what that state is; no step answers `Host.Outcome.fault` (log entry 4; safe). -/
inductive Fault where
  /-- Raised by the opcode fetch when byte 0 is illegal; `addr` is the opcode byte's address. Safe: the spec's
  own condition (R112, R301). -/
  | illegalOpcode (addr : Byte)
  /-- Raised by a push (`CALL`, interrupt entry) outside the stack region when `STACKSIZE` is not 0; `addr` is the
  refused address. Safe: the spec's own condition (20_memory.md R66, R301). -/
  | stackOverflow (addr : Byte)
  /-- Raised by a data write to RAM at or above `PROGRAM_BOUND` and outside the stack region; `addr` is the refused
  address. Safe: the spec's own condition (20_memory.md R66, R301). -/
  | outOfBoundsWrite (addr : Byte)
  /-- Raised in strict mode by a read of an address with no register; `addr` is that address. Safe: the spec's own
  condition (20_memory.md R59, R301). -/
  | undefinedInput (addr : Byte)
  /-- Raised at the M-level by an ill-formed control word; `mp` is its ROM address. Safe: the spec's own condition
  (40_datapath.md R166, R301). -/
  | illegalMicroWord (mp : BitVec 9)
  deriving DecidableEq, Repr

/-- Reasons for which a step has no meaning. -/
inductive Refusal where
  /-- Raised by `exec`'s arm of an instruction the model gives no meaning yet, with the row's mnemonic. Safe: nothing
  is claimed of it. No arm uses it: every instruction has its meaning. -/
  | notModelled (mnemonic : String)
  deriving DecidableEq, Repr

/-- The run state (00_scope.md R9, 10_state.md R36). -/
inductive RunState where
  | running
  | stopped
  | errorHalted (reason : Fault)
  deriving DecidableEq, Repr

/-- What the host gives at boot, fixed for a run (10_state.md R37, 70_reset_and_hazards.md R345): the image (in the
form of `Memory`), `STACKSIZE`, `PROGRAM_BOUND` and `STRICT_IO`. -/
structure BootConfig where
  image : Memory
  stackSize : StackSize
  programBound : Option Byte
  strictIo : Bool
  deriving DecidableEq, Repr

/-- The state of the machine. -/
structure State where
  /-- R0..R7, with the PC in R3 and the SP in R4 (10_state.md R20, R22). -/
  regs : RegBlock
  /-- CF, ZF, NF, IEF (10_state.md R25). -/
  flags : Flags
  /-- RAM 0x00..0xEF (20_memory.md R52). -/
  ram : Memory
  /-- The Master Interrupt Status Register (10_state.md R29). -/
  misr : Byte
  /-- UIOCR, the value register of the universal I/O pins (10_state.md R30). -/
  uioVal : BitVec 3
  /-- UIOCR, the direction bits, 1 = output (10_state.md R30). -/
  uioDir : BitVec 3
  /-- Analog output latch 1 (10_state.md R31). -/
  ao1 : Byte
  /-- Analog output latch 2 (10_state.md R31). -/
  ao2 : Byte
  /-- The main-board output registers OUT[0xFC..0xFF] (10_state.md R32). -/
  out : PortBytes
  /-- The request latches REQ (10_state.md R35). -/
  req : SourceBits
  /-- The previous samples PREV (10_state.md R35). -/
  prev : SourceBits
  /-- The host's inputs (10_state.md R33). -/
  inputs : Inputs
  /-- The M-level state (10_state.md R34). -/
  micro : MicroState
  /-- The run state (10_state.md R36). -/
  run : RunState
  /-- What the host gave at boot (10_state.md R37; log entry 2). -/
  boot : BootConfig
  deriving DecidableEq, Repr

/-- The reset value of the register block: every register 0x00 (10_state.md R38). -/
def RegBlock.reset : RegBlock := ⟨0, 0, 0, 0, 0, 0, 0, 0⟩

/-- The reset value of the flags: all 0 (10_state.md R38). -/
def Flags.reset : Flags := ⟨false, false, false, false⟩

/-- Four ports at 0x00 (10_state.md R38). -/
def PortBytes.zero : PortBytes := ⟨0, 0, 0, 0⟩

/-- Four sources at 0 (10_state.md R38). -/
def SourceBits.zero : SourceBits := ⟨false, false, false, false⟩

/-- The inputs of a host that has installed none: each reads as 0 (10_state.md R33). -/
def Inputs.zero : Inputs := ⟨.zero, 0, 0, 0, false, false⟩

/-- The reset value of the M-level state (10_state.md R34, R38). -/
def MicroState.reset : MicroState := ⟨0, 0, .read, .r0, .r0, 0, 0, 0, 0, false⟩

/-- What boot records for an image nobody filled and no directive set: every image byte 0 (30_encoding.md R130),
`STACKSIZE` 16, no bound, permissive I/O (00_scope.md R5, 30_encoding.md R131; log entry 1). -/
def BootConfig.default : BootConfig := ⟨[], .s16, none, false⟩

/-- The state right after boot or reset, given what boot recorded, the RAM the reset kind leaves and the inputs, which
no reset changes (10_state.md R38, 70_reset_and_hazards.md R340, R341). -/
def State.afterReset (boot : BootConfig) (ram : Memory) (inputs : Inputs) : State where
  regs := .reset
  flags := .reset
  ram := ram
  misr := 0
  uioVal := 0
  uioDir := 0
  ao1 := 0
  ao2 := 0
  out := .zero
  req := .zero
  prev := .zero
  inputs := inputs
  micro := .reset
  run := .running
  boot := boot

/-- The machine right after reset, with nothing loaded: the boot of the image nobody filled with the default
parameters and inputs never installed (10_state.md R38; log entry 1). -/
def State.reset : State := State.afterReset .default [] .zero

end Sys2Proof.Machine
end

