-- ==== Sys2Proof/Machine/Flags.lean ====
section
/-! DEFINITION. The ALU and every flag computation.
spec: 40_datapath.md R144 (flag outputs), R145 (the sixteen functions), R151 (carry-in), R146 (no overflow flag);
10_state.md R28 (the flags shown as a byte); 44_bit_ops.md R250 to R253 (the bit operations). -/

namespace Sys2Proof.Machine

/-- What the ALU gives: the result byte F and the carry bit C (R144). -/
structure AluOut where
  f : Byte
  c : Bool
  deriving DecidableEq, Repr

/-- The low eight bits and bit 8 of the 9-bit intermediate `t` (R145). -/
def AluOut.ofNine (t : BitVec 9) : AluOut := ⟨t.setWidth 8, t.getLsbD 8⟩

/-- A carry bit as a 9-bit number. -/
def carryIn (c : Bool) : BitVec 9 := if c then 1#9 else 0#9

/-- The sixteen ALU functions, `ALU(code, A, B, cin)` (R145). Subtraction gives the borrow as C. -/
def alu (fn : AluFn) (a b : Byte) (cin : Bool) : AluOut :=
  match fn with
  | .add => .ofNine (a.setWidth 9 + b.setWidth 9)
  | .sub => .ofNine (a.setWidth 9 - b.setWidth 9)
  | .addc => .ofNine (a.setWidth 9 + b.setWidth 9 + carryIn cin)
  | .subc => .ofNine (a.setWidth 9 - b.setWidth 9 - carryIn cin)
  | .and => ⟨a &&& b, false⟩
  | .or => ⟨a ||| b, false⟩
  | .xor => ⟨a ^^^ b, false⟩
  | .notA => ⟨~~~a, false⟩
  | .shl => ⟨a.extractLsb' 0 7 ++ 0#1, a.getLsbD 7⟩
  | .shr => ⟨0#1 ++ a.extractLsb' 1 7, a.getLsbD 0⟩
  | .asr => ⟨a.extractLsb' 7 1 ++ a.extractLsb' 1 7, a.getLsbD 0⟩
  | .passA => ⟨a, false⟩
  | .incA => .ofNine (a.setWidth 9 + 1#9)
  | .decA => .ofNine (a.setWidth 9 - 1#9)
  | .passB => ⟨b, false⟩
  | .zero => ⟨0#8, false⟩

/-- The flag output Z: the result is 0 (R144). -/
def zeroFlag (f : Byte) : Bool := f == 0#8

/-- The flag output N: bit 7 of the result (R144). -/
def negFlag (f : Byte) : Bool := f.getLsbD 7

/-- The flags after CF, ZF and NF take the outputs of the ALU; IEF stays (10_state.md R26, 43_alu.md R230). -/
def Flags.commit (fl : Flags) (r : AluOut) : Flags :=
  { fl with cf := r.c, zf := zeroFlag r.f, nf := negFlag r.f }

/-- The three bit operations (44_bit_ops.md R251 to R253). -/
inductive BitFn where
  | set | clear | test
  deriving DecidableEq, Repr

/-- The result of a bit operation on A with mask m, with C = 0 (44_bit_ops.md R250). -/
def bitResult (fn : BitFn) (a m : Byte) : AluOut :=
  match fn with
  | .set => ⟨a ||| m, false⟩
  | .clear => ⟨a &&& ~~~m, false⟩
  | .test => ⟨a &&& m, false⟩

/-- One bit of a byte shown from a flag. -/
def flagBit (b : Bool) : BitVec 1 := BitVec.ofBool b

/-- The flags shown as a byte to a host, `0000 ‖ IEF ‖ NF ‖ ZF ‖ CF`; observation only (10_state.md R28). -/
def Flags.toByte (fl : Flags) : Byte :=
  0#4 ++ flagBit fl.ief ++ flagBit fl.nf ++ flagBit fl.zf ++ flagBit fl.cf

end Sys2Proof.Machine
end

