-- ==== Sys2Proof/Machine/Ops.lean ====
section
/-! DEFINITION. The named operations over registers, RAM, the bus, the stack and the interrupt unit.
spec: 10_state.md R22, R24, R29, R35 (registers); 20_memory.md R51 to R72 (map, bus, board, checks, stack);
30_encoding.md R118, R119, R121 (fetch and precise errors); 60_exceptions.md R301, R302, R307 to R313
(runtime errors and interrupts). -/

namespace Sys2Proof.Machine

/-! ### Registers -/

/-- The value of a register (10_state.md R20; none is hardwired). -/
def RegBlock.get (b : RegBlock) : Reg → Byte
  | .r0 => b.r0 | .r1 => b.r1 | .r2 => b.r2 | .r3 => b.r3
  | .r4 => b.r4 | .r5 => b.r5 | .r6 => b.r6 | .r7 => b.r7

/-- The block after one register is written. -/
def RegBlock.set (b : RegBlock) (r : Reg) (v : Byte) : RegBlock :=
  match r with
  | .r0 => { b with r0 := v } | .r1 => { b with r1 := v }
  | .r2 => { b with r2 := v } | .r3 => { b with r3 := v }
  | .r4 => { b with r4 := v } | .r5 => { b with r5 := v }
  | .r6 => { b with r6 := v } | .r7 => { b with r7 := v }

/-- `x[i]` (00_scope.md R8). -/
def State.reg (s : State) (r : Reg) : Byte := s.regs.get r

/-- `x[i] <- v` (00_scope.md R8). -/
def State.setReg (s : State) (r : Reg) (v : Byte) : State := { s with regs := s.regs.set r v }

/-- The program counter, `x[PC_INDEX]` (10_state.md R22). -/
def State.pc (s : State) : Byte := s.reg Config.pcReg

/-- `pc <- t`. -/
def State.setPc (s : State) (t : Byte) : State := s.setReg Config.pcReg t

/-- The stack pointer, `x[SP_INDEX]` (10_state.md R22). -/
def State.sp (s : State) : Byte := s.reg Config.spReg

/-- `sp <- n`. -/
def State.setSp (s : State) (n : Byte) : State := s.setReg Config.spReg n

/-- CF, ZF and NF take the outputs of the ALU (10_state.md R26). -/
def State.commitFlags (s : State) (r : AluOut) : State := { s with flags := s.flags.commit r }

/-- `IEF <- v` (10_state.md R26). -/
def State.setIef (s : State) (v : Bool) : State := { s with flags := { s.flags with ief := v } }

/-- The run state becomes `r`. -/
def State.setRun (s : State) (r : RunState) : State := { s with run := r }

/-! ### RAM -/

/-- The byte at an address; 0x00 where none is listed (30_encoding.md R130). -/
def Memory.read : Memory → Nat → Byte
  | [], _ => 0#8
  | (k, v) :: m, a => if k = a then v else Memory.read m a

/-- An entry for `v` at `a` before `m`, or none where `v` is what an unlisted address reads as. -/
def Memory.entry (a : Nat) (v : Byte) (m : Memory) : Memory := if v = 0#8 then m else (a, v) :: m

/-- The memory after the byte `v` is written at `a`, in canonical form. -/
def Memory.write : Memory → Nat → Byte → Memory
  | [], a, v => Memory.entry a v []
  | (k, w) :: m, a, v =>
    if a < k then Memory.entry a v ((k, w) :: m)
    else if a = k then Memory.entry a v m
    else (k, w) :: Memory.write m a v

/-- Every address is at least `lo` and below 0xF0, addresses strictly rise, and no listed byte is 0x00. -/
def Memory.wfFrom : Nat → Memory → Bool
  | _, [] => true
  | lo, (k, v) :: m => decide (lo ≤ k) && decide (k < Config.ramSize) && (v != 0#8) && Memory.wfFrom (k + 1) m

/-- The canonical form of RAM. -/
def Memory.wf (m : Memory) : Bool := Memory.wfFrom 0 m

/-! ### The address map -/

/-- Where the bus routes an address (20_memory.md R51). -/
inductive Region where
  /-- 0x00..0xEF. -/
  | ram
  /-- 0xF0: read IRG, write AO1. -/
  | f0
  /-- 0xF1: read the temperature code, write AO2. -/
  | f1
  /-- 0xF2: the universal I/O pins. -/
  | uio
  /-- 0xF3: board interrupt status, writes ignored. -/
  | status
  /-- 0xF4..0xF8, 0xFA, 0xFB: no register. -/
  | nothing
  /-- 0xF9: MISR. -/
  | misr
  /-- 0xFC..0xFF: read IN, write OUT. -/
  | port (p : IoPort)
  deriving DecidableEq, Repr

/-- The region of a bus address (20_memory.md R51). -/
def region (a : Byte) : Region :=
  if a.toNat < Config.ramSize then .ram
  else match a.toNat with
    | 0xF0 => .f0
    | 0xF1 => .f1
    | 0xF2 => .uio
    | 0xF3 => .status
    | 0xF9 => .misr
    | 0xFC => .port .fc
    | 0xFD => .port .fd
    | 0xFE => .port .fe
    | 0xFF => .port .ff
    | _ => .nothing

/-- The byte of a port. -/
def PortBytes.get (b : PortBytes) : IoPort → Byte
  | .fc => b.fc | .fd => b.fd | .fe => b.fe | .ff => b.ff

/-- The bytes after one port's is written. -/
def PortBytes.set (b : PortBytes) (p : IoPort) (v : Byte) : PortBytes :=
  match p with
  | .fc => { b with fc := v } | .fd => { b with fd := v }
  | .fe => { b with fe := v } | .ff => { b with ff := v }

/-- The temperature sensor's code, `floor(clamp(TEMP, 0.0, 5.0) × 255 / 5.0)`, computed on the numerator and the
denominator of TEMP (20_memory.md R72). -/
def adcCode (v : Rat) : Byte :=
  if v.num ≤ 0 then 0x00#8
  else if 5 * v.den ≤ v.num.toNat then 0xFF#8
  else BitVec.ofNat 8 (v.num.toNat * 255 / (5 * v.den))

/-- The voltage an analog output code drives, `code × 5.0 / 255` (20_memory.md R71); observation only. -/
def analogVolts (code : Byte) : Rat := (code.toNat : Rat) * 5 / 255

/-- `LEVEL[i] = DIR[i] ? VAL[i] : UIO_EXT[i]` for the three pins (20_memory.md R64, R73). -/
def State.level (s : State) : BitVec 3 :=
  (s.uioDir &&& s.uioVal) ||| (~~~s.uioDir &&& s.inputs.uioExt)

/-- The byte a bus read of `a` returns; an address with no register gives 0x00 (20_memory.md R60, R64, R65). -/
def State.busValue (s : State) (a : Byte) : Byte :=
  match region a with
  | .ram => s.ram.read a.toNat
  | .f0 => s.inputs.irg
  | .f1 => adcCode s.inputs.temp
  | .uio => 0#1 ++ s.uioDir ++ 0#1 ++ s.level
  | .status => 0#5 ++ s.misr.extractLsb' 5 3
  | .nothing => 0x00#8
  | .misr => s.misr
  | .port p => s.inputs.inp.get p

/-- `MemRead(a, 1)`: in strict mode an address with no register raises `UndefinedInput` (20_memory.md R59, R60). A
read changes no state (R56). -/
def State.busRead (s : State) (a : Byte) : Except Fault Byte :=
  if s.boot.strictIo ∧ region a = .nothing then .error (.undefinedInput a) else .ok (s.busValue a)

/-- Whether a write is the write of a push or any other (20_memory.md R61). -/
inductive WriteKind where
  | stack | data
  deriving DecidableEq, Repr

/-- `STACK_REGION = [0xF0 − STACKSIZE, 0xEF]`, empty when `STACKSIZE` is 0 (20_memory.md R69). -/
def BootConfig.inStack (b : BootConfig) (a : Byte) : Bool :=
  decide (Config.ramSize - b.stackSize.bytes ≤ a.toNat) && decide (a.toNat < Config.ramSize)

/-- `a` is at or above `PROGRAM_BOUND`, where there is one (20_memory.md R70). -/
def BootConfig.aboveBound (b : BootConfig) (a : Byte) : Bool :=
  match b.programBound with
  | none => false
  | some p => decide (p.toNat ≤ a.toNat)

/-- `WriteCheck(a, kind)`: the error a write is refused with, or `none` (20_memory.md R66). -/
def BootConfig.writeCheck (b : BootConfig) (a : Byte) (kind : WriteKind) : Option Fault :=
  match kind with
  | .stack => if b.stackSize ≠ .s0 ∧ ¬ b.inStack a then some (.stackOverflow a) else none
  | .data =>
    if a.toNat < Config.ramSize ∧ b.aboveBound a ∧ ¬ (b.stackSize ≠ .s0 ∧ b.inStack a)
    then some (.outOfBoundsWrite a) else none

/-- The state after the byte `v` goes where the bus routes a write of `a` (20_memory.md R51, R58, R61, R62, R64). -/
def State.store (s : State) (a v : Byte) : State :=
  match region a with
  | .ram => { s with ram := s.ram.write a.toNat v }
  | .f0 => { s with ao1 := v }
  | .f1 => { s with ao2 := v }
  | .uio => { s with uioVal := v.extractLsb' 0 3, uioDir := v.extractLsb' 4 3 }
  | .misr => { s with misr := v }
  | .port p => { s with out := s.out.set p v }
  | .status => s
  | .nothing => s

/-- `MemWrite(a, 1, v, kind)` (20_memory.md R61). -/
def State.busWrite (s : State) (a v : Byte) (kind : WriteKind) : Except Fault State :=
  match s.boot.writeCheck a kind with
  | some e => .error e
  | none => .ok (s.store a v)

/-! ### The stack -/

/-- `push(v)`: the stack is full-descending (20_memory.md R67). -/
def State.push (s : State) (v : Byte) : Except Fault State :=
  let s' := s.setSp (s.sp - 1)
  s'.busWrite s'.sp v .stack

/-- `pop()`: the byte and the state after it; no underflow check (20_memory.md R68). -/
def State.pop (s : State) : Except Fault (Byte × State) := do
  let v ← s.busRead s.sp
  return (v, s.setSp (s.sp + 1))

/-! ### Runtime errors -/

/-- The numeric code of a runtime error (60_exceptions.md R301). -/
def Fault.code : Fault → Nat
  | .illegalOpcode _ => 1
  | .stackOverflow _ => 2
  | .outOfBoundsWrite _ => 3
  | .undefinedInput _ => 4
  | .illegalMicroWord _ => 5

/-- `raise E(info)`: the run state becomes `ErrorHalted(E, info)` and nothing else of `s` changes. `s` is the state at
the start of the step, after its input samples (30_encoding.md R121, 60_exceptions.md R302). -/
def State.raise (s : State) (e : Fault) : State := s.setRun (.errorHalted e)

/-- The state a precise step leaves: what its body computes, or `s` with the error raised (30_encoding.md R121). -/
def State.orRaise (s : State) : Except Fault State → State
  | .ok t => t
  | .error e => s.raise e

/-- One instruction of `len` bytes from the state `s` at its own address: the PC moves past the instruction, `body` is
its rule's pseudocode, and an error leaves `s` but for the run state (30_encoding.md R118, R121). -/
def instruction (len : Byte) (body : State → Except Fault State) (s : State) :
    Host.Outcome State Fault Refusal :=
  .next (s.orRaise (body (s.setPc (s.pc + len))))

/-! ### The interrupt unit -/

/-- The sources from the highest priority to the lowest (60_exceptions.md R307). -/
def Source.byPriority : List Source := [.key, .uio1, .uio2, .uio3]

/-- `index(s)`: KEY 0, UIO1 1, UIO2 2, UIO3 3 (60_exceptions.md R313). -/
def Source.index : Source → Nat
  | .key => 0 | .uio1 => 1 | .uio2 => 2 | .uio3 => 3

/-- The bit of one source. -/
def SourceBits.get (b : SourceBits) : Source → Bool
  | .key => b.key | .uio1 => b.uio1 | .uio2 => b.uio2 | .uio3 => b.uio3

/-- The bits after one source's is written. -/
def SourceBits.set (b : SourceBits) (i : Source) (v : Bool) : SourceBits :=
  match i with
  | .key => { b with key := v } | .uio1 => { b with uio1 := v }
  | .uio2 => { b with uio2 := v } | .uio3 => { b with uio3 := v }

/-- The bits a function gives the four sources. -/
def SourceBits.tabulate (g : Source → Bool) : SourceBits := ⟨g .key, g .uio1, g .uio2, g .uio3⟩

/-- The input level of universal I/O pin `i`: the host's level on an input, 0 on an output (60_exceptions.md R307,
R310). -/
def State.pinLevel (s : State) (i : Nat) : Bool := !s.uioDir.getLsbD i && s.inputs.uioExt.getLsbD i

/-- `lvl[s]` (60_exceptions.md R307). -/
def State.sourceLevel (s : State) : Source → Bool
  | .key => s.inputs.inp.fc.getLsbD Config.keyBit
  | .uio1 => s.pinLevel 0
  | .uio2 => s.pinLevel 1
  | .uio3 => s.pinLevel 2

/-- `EN[s]`, the enable bit MISR[index(s)] (60_exceptions.md R307, 10_state.md R29). -/
def State.sourceEnabled (s : State) (i : Source) : Bool := s.misr.getLsbD i.index

/-- A rising edge seen while the source is enabled (60_exceptions.md R310). -/
def State.enabledEdge (s : State) (i : Source) : Bool :=
  !s.prev.get i && s.sourceLevel i && s.sourceEnabled i

/-- `SampleInputs()` (60_exceptions.md R310). -/
def State.sampleInputs (s : State) : State :=
  { s with
    req := .tabulate fun i => s.req.get i || s.enabledEdge i
    prev := .tabulate s.sourceLevel }

/-- `Selected()` when `InterruptDue()`, else `none`: IEF is set and a source with its request latched and its enable
bit set exists; of those, the first in priority order (60_exceptions.md R311). -/
def State.dueSource (s : State) : Option Source :=
  if s.flags.ief then Source.byPriority.find? fun i => s.req.get i && s.sourceEnabled i else none

/-- The MISR with the pending bit `4 + index(s)` set, as interrupt entry sets it (60_exceptions.md R313). -/
def setPending (misr : Byte) (i : Source) : Byte := misr ||| (1#8 <<< (4 + i.index))

/-- `InterruptEntry()` for the selected source: push the PC, clear IEF, set the pending bit, clear the request, go to the
vector (60_exceptions.md R313). It saves nothing else (R314). The MISR update is no bus write. -/
def State.enterInterrupt (s : State) (i : Source) : Except Fault State := do
  let t ← s.push s.pc
  let u := t.setIef false
  let w := { u with misr := setPending u.misr i, req := u.req.set i false }
  return w.setPc Config.isrVector

/-- The return from an interrupt, `pc <- pop(); IEF <- 1` (41_control_flow.md R209, 60_exceptions.md R316). -/
def State.returnFromInterrupt (s : State) : Except Fault State := do
  let (v, t) ← s.pop
  return (t.setPc v).setIef true

/-! ### Instruction fetch -/

/-- Byte `k` of an instruction of `n` bytes at `pc`, 0 where the instruction has no such byte (30_encoding.md R118). -/
def State.fetchOperand (s : State) (n k : Nat) : Except Fault Byte :=
  if k < n then s.busRead (s.pc + BitVec.ofNat 8 k) else .ok 0#8

/-- The instruction at the PC: its bytes are read over the bus in order, the opcode is checked before any operand byte
is read, and an illegal opcode raises `IllegalOpcode` with its address (30_encoding.md R118, R119; 60_exceptions.md
R305). -/
def State.fetch (s : State) : Except Fault Instr := do
  let b0 ← s.busRead s.pc
  match opcodeLength b0 with
  | none => .error (.illegalOpcode s.pc)
  | some n =>
    let b1 ← s.fetchOperand n 1
    let b2 ← s.fetchOperand n 2
    match decodeInstr b0 b1 b2 with
    | none => .error (.illegalOpcode s.pc)
    | some i => .ok i

end Sys2Proof.Machine
end

