-- ==== Sys2Proof/Machine/Operands.lean ====
section
/-! DEFINITION. The operand forms and the shared bodies of the instructions that use them.
spec: 30_encoding.md R110, R111 (operands); 43_alu.md R230 (`TwoOp`), R239 (`OneOp`); 44_bit_ops.md R250
(`BitOp`); 42_data_move.md R220 (`MOV`). -/

namespace Sys2Proof.Machine

/-- An operand that can be written: `Reg(r)` or `Mem(a)` (R111). -/
inductive Place where
  | reg (r : Reg)
  | mem (a : Byte)
  deriving DecidableEq, Repr

/-- An operand that can be read: a place or `Imm(n)` (R111). -/
inductive Operand where
  | place (p : Place)
  | imm (n : Byte)
  deriving DecidableEq, Repr

/-- `read(Reg(r))` and `read(Mem(a))` (R111). -/
def State.readPlace (s : State) : Place → Except Fault Byte
  | .reg r => .ok (s.reg r)
  | .mem a => s.busRead a

/-- `read(opd)` (R111). -/
def State.readOperand (s : State) : Operand → Except Fault Byte
  | .place p => s.readPlace p
  | .imm n => .ok n

/-- `write(Reg(r), v)` and `write(Mem(a), v)` (R111). -/
def State.writePlace (s : State) (p : Place) (v : Byte) : Except Fault State :=
  match p with
  | .reg r => .ok (s.setReg r v)
  | .mem a => s.busWrite a v .data

/-- The end of an ALU or bit instruction: the result is written back when `wb`, then CF, ZF and NF take the outputs
(43_alu.md R230). -/
def State.finish (s : State) (dst : Place) (wb : Bool) (r : AluOut) : Except Fault State := do
  let t ← if wb then s.writePlace dst r.f else .ok s
  return t.commitFlags r

/-- `TwoOp(code, cin, wb)` (43_alu.md R230): the destination is read before the source. `useCf` says whether the carry-in is
CF or 0. -/
def twoOp (fn : AluFn) (useCf wb : Bool) (dst : Place) (src : Operand) (s : State) : Except Fault State := do
  let a ← s.readPlace dst
  let b ← s.readOperand src
  s.finish dst wb (alu fn a b (useCf && s.flags.cf))

/-- `OneOp(code, rd, wb)` (43_alu.md R239). -/
def oneOp (fn : AluFn) (rd wb : Bool) (opd : Place) (s : State) : Except Fault State := do
  let a ← if rd then s.readPlace opd else .ok 0#8
  s.finish opd wb (alu fn a 0#8 false)

/-- `BitOp(op, wb)` (44_bit_ops.md R250). -/
def bitOp (fn : BitFn) (wb : Bool) (dst : Place) (m : Byte) (s : State) : Except Fault State := do
  let a ← s.readPlace dst
  s.finish dst wb (bitResult fn a m)

/-- `MOV dst, src`: no flag is written (42_data_move.md R220). -/
def moveOp (dst : Place) (src : Operand) (s : State) : Except Fault State := do
  let v ← s.readOperand src
  s.writePlace dst v

/-- `if cond: pc <- t` (41_control_flow.md R200 to R206). -/
def jumpIf (cond : Bool) (t : Byte) (s : State) : Except Fault State :=
  .ok (if cond then s.setPc t else s)

/-- `ADD` (43_alu.md R231). -/
def addOp : Place → Operand → State → Except Fault State := twoOp .add false true
/-- `ADC` (43_alu.md R232). -/
def adcOp : Place → Operand → State → Except Fault State := twoOp .addc true true
/-- `SUB` (43_alu.md R233). -/
def subOp : Place → Operand → State → Except Fault State := twoOp .sub false true
/-- `SBC` (43_alu.md R234). -/
def sbcOp : Place → Operand → State → Except Fault State := twoOp .subc true true
/-- `AND` (43_alu.md R235). -/
def andOp : Place → Operand → State → Except Fault State := twoOp .and false true
/-- `OR` (43_alu.md R236). -/
def orOp : Place → Operand → State → Except Fault State := twoOp .or false true
/-- `XOR` (43_alu.md R237). -/
def xorOp : Place → Operand → State → Except Fault State := twoOp .xor false true
/-- `CMP`: the flags of A − B, nothing written back (43_alu.md R238). -/
def cmpOp : Place → Operand → State → Except Fault State := twoOp .sub false false
/-- `TST`: nothing written back (43_alu.md R240). -/
def tstOp : Place → State → Except Fault State := oneOp .passA true false
/-- `INC` (43_alu.md R241). -/
def incOp : Place → State → Except Fault State := oneOp .incA true true
/-- `DEC` (43_alu.md R242). -/
def decOp : Place → State → Except Fault State := oneOp .decA true true
/-- `CLR`: the operand is not read (43_alu.md R243). -/
def clrOp : Place → State → Except Fault State := oneOp .zero false true
/-- `NOT` (43_alu.md R244). -/
def notOp : Place → State → Except Fault State := oneOp .notA true true
/-- `SHL` (43_alu.md R245). -/
def shlOp : Place → State → Except Fault State := oneOp .shl true true
/-- `SHR` (43_alu.md R246). -/
def shrOp : Place → State → Except Fault State := oneOp .shr true true
/-- `ASR` (43_alu.md R247). -/
def asrOp : Place → State → Except Fault State := oneOp .asr true true
/-- `BITS` (44_bit_ops.md R251). -/
def bitsOp : Place → Byte → State → Except Fault State := bitOp .set true
/-- `BITC` (44_bit_ops.md R252). -/
def bitcOp : Place → Byte → State → Except Fault State := bitOp .clear true
/-- `BITT`: nothing written back (44_bit_ops.md R253). -/
def bittOp : Place → Byte → State → Except Fault State := bitOp .test false

end Sys2Proof.Machine
end

