-- ==== Sys2Proof/Machine/AluOne.lean ====
section
/-! DEFINITION. The one-operand ALU instructions, on a register and on a memory byte.
spec: 43_alu.md R239 to R247. -/

namespace Sys2Proof.Machine

/-- `INC Rr` (R241). -/
def execIncR (r : Reg) (s : State) : Host.Outcome State Fault Refusal :=
  instruction 1 (incOp (.reg r)) s

/-- `INC (a)` (R241). -/
def execIncM (a : Byte) (s : State) : Host.Outcome State Fault Refusal :=
  instruction 2 (incOp (.mem a)) s

/-- `DEC Rr` (R242). -/
def execDecR (r : Reg) (s : State) : Host.Outcome State Fault Refusal :=
  instruction 1 (decOp (.reg r)) s

/-- `DEC (a)` (R242). -/
def execDecM (a : Byte) (s : State) : Host.Outcome State Fault Refusal :=
  instruction 2 (decOp (.mem a)) s

/-- `CLR Rr` (R243). -/
def execClrR (r : Reg) (s : State) : Host.Outcome State Fault Refusal :=
  instruction 1 (clrOp (.reg r)) s

/-- `CLR (a)` (R243). -/
def execClrM (a : Byte) (s : State) : Host.Outcome State Fault Refusal :=
  instruction 2 (clrOp (.mem a)) s

/-- `NOT Rr` (R244). -/
def execNotR (r : Reg) (s : State) : Host.Outcome State Fault Refusal :=
  instruction 1 (notOp (.reg r)) s

/-- `NOT (a)` (R244). -/
def execNotM (a : Byte) (s : State) : Host.Outcome State Fault Refusal :=
  instruction 2 (notOp (.mem a)) s

/-- `SHL Rr` (R245). -/
def execShlR (r : Reg) (s : State) : Host.Outcome State Fault Refusal :=
  instruction 1 (shlOp (.reg r)) s

/-- `SHL (a)` (R245). -/
def execShlM (a : Byte) (s : State) : Host.Outcome State Fault Refusal :=
  instruction 2 (shlOp (.mem a)) s

/-- `SHR Rr` (R246). -/
def execShrR (r : Reg) (s : State) : Host.Outcome State Fault Refusal :=
  instruction 1 (shrOp (.reg r)) s

/-- `SHR (a)` (R246). -/
def execShrM (a : Byte) (s : State) : Host.Outcome State Fault Refusal :=
  instruction 2 (shrOp (.mem a)) s

/-- `ASR Rr` (R247). -/
def execAsrR (r : Reg) (s : State) : Host.Outcome State Fault Refusal :=
  instruction 1 (asrOp (.reg r)) s

/-- `ASR (a)` (R247). -/
def execAsrM (a : Byte) (s : State) : Host.Outcome State Fault Refusal :=
  instruction 2 (asrOp (.mem a)) s

/-- `TST Rr` (R240). -/
def execTstR (r : Reg) (s : State) : Host.Outcome State Fault Refusal :=
  instruction 1 (tstOp (.reg r)) s

/-- `TST (a)` (R240). -/
def execTstM (a : Byte) (s : State) : Host.Outcome State Fault Refusal :=
  instruction 2 (tstOp (.mem a)) s

end Sys2Proof.Machine
end

