-- ==== Sys2Proof/Machine/AluTwo.lean ====
section
/-! DEFINITION. The two-operand ALU instructions, each in its six modes.
spec: 43_alu.md R230 to R238. -/

namespace Sys2Proof.Machine

/-- `ADD Rd,Rs` (R231). -/
def execAddRR (d r : Reg) (s : State) : Host.Outcome State Fault Refusal :=
  instruction 2 (addOp (.reg d) (.place (.reg r))) s

/-- `ADD Rd,n` (R231). -/
def execAddRI (d : Reg) (n : Byte) (s : State) : Host.Outcome State Fault Refusal :=
  instruction 3 (addOp (.reg d) (.imm n)) s

/-- `ADD Rd,(a)` (R231). -/
def execAddRM (d : Reg) (a : Byte) (s : State) : Host.Outcome State Fault Refusal :=
  instruction 3 (addOp (.reg d) (.place (.mem a))) s

/-- `ADD (a),Rs` (R231). -/
def execAddMR (a : Byte) (r : Reg) (s : State) : Host.Outcome State Fault Refusal :=
  instruction 3 (addOp (.mem a) (.place (.reg r))) s

/-- `ADD (a),(b)` (R231). -/
def execAddMM (a b : Byte) (s : State) : Host.Outcome State Fault Refusal :=
  instruction 3 (addOp (.mem a) (.place (.mem b))) s

/-- `ADD (a),n` (R231). -/
def execAddMI (a n : Byte) (s : State) : Host.Outcome State Fault Refusal :=
  instruction 3 (addOp (.mem a) (.imm n)) s

/-- `ADC Rd,Rs` (R232). -/
def execAdcRR (d r : Reg) (s : State) : Host.Outcome State Fault Refusal :=
  instruction 2 (adcOp (.reg d) (.place (.reg r))) s

/-- `ADC Rd,n` (R232). -/
def execAdcRI (d : Reg) (n : Byte) (s : State) : Host.Outcome State Fault Refusal :=
  instruction 3 (adcOp (.reg d) (.imm n)) s

/-- `ADC Rd,(a)` (R232). -/
def execAdcRM (d : Reg) (a : Byte) (s : State) : Host.Outcome State Fault Refusal :=
  instruction 3 (adcOp (.reg d) (.place (.mem a))) s

/-- `ADC (a),Rs` (R232). -/
def execAdcMR (a : Byte) (r : Reg) (s : State) : Host.Outcome State Fault Refusal :=
  instruction 3 (adcOp (.mem a) (.place (.reg r))) s

/-- `ADC (a),(b)` (R232). -/
def execAdcMM (a b : Byte) (s : State) : Host.Outcome State Fault Refusal :=
  instruction 3 (adcOp (.mem a) (.place (.mem b))) s

/-- `ADC (a),n` (R232). -/
def execAdcMI (a n : Byte) (s : State) : Host.Outcome State Fault Refusal :=
  instruction 3 (adcOp (.mem a) (.imm n)) s

/-- `SUB Rd,Rs` (R233). -/
def execSubRR (d r : Reg) (s : State) : Host.Outcome State Fault Refusal :=
  instruction 2 (subOp (.reg d) (.place (.reg r))) s

/-- `SUB Rd,n` (R233). -/
def execSubRI (d : Reg) (n : Byte) (s : State) : Host.Outcome State Fault Refusal :=
  instruction 3 (subOp (.reg d) (.imm n)) s

/-- `SUB Rd,(a)` (R233). -/
def execSubRM (d : Reg) (a : Byte) (s : State) : Host.Outcome State Fault Refusal :=
  instruction 3 (subOp (.reg d) (.place (.mem a))) s

/-- `SUB (a),Rs` (R233). -/
def execSubMR (a : Byte) (r : Reg) (s : State) : Host.Outcome State Fault Refusal :=
  instruction 3 (subOp (.mem a) (.place (.reg r))) s

/-- `SUB (a),(b)` (R233). -/
def execSubMM (a b : Byte) (s : State) : Host.Outcome State Fault Refusal :=
  instruction 3 (subOp (.mem a) (.place (.mem b))) s

/-- `SUB (a),n` (R233). -/
def execSubMI (a n : Byte) (s : State) : Host.Outcome State Fault Refusal :=
  instruction 3 (subOp (.mem a) (.imm n)) s

/-- `SBC Rd,Rs` (R234). -/
def execSbcRR (d r : Reg) (s : State) : Host.Outcome State Fault Refusal :=
  instruction 2 (sbcOp (.reg d) (.place (.reg r))) s

/-- `SBC Rd,n` (R234). -/
def execSbcRI (d : Reg) (n : Byte) (s : State) : Host.Outcome State Fault Refusal :=
  instruction 3 (sbcOp (.reg d) (.imm n)) s

/-- `SBC Rd,(a)` (R234). -/
def execSbcRM (d : Reg) (a : Byte) (s : State) : Host.Outcome State Fault Refusal :=
  instruction 3 (sbcOp (.reg d) (.place (.mem a))) s

/-- `SBC (a),Rs` (R234). -/
def execSbcMR (a : Byte) (r : Reg) (s : State) : Host.Outcome State Fault Refusal :=
  instruction 3 (sbcOp (.mem a) (.place (.reg r))) s

/-- `SBC (a),(b)` (R234). -/
def execSbcMM (a b : Byte) (s : State) : Host.Outcome State Fault Refusal :=
  instruction 3 (sbcOp (.mem a) (.place (.mem b))) s

/-- `SBC (a),n` (R234). -/
def execSbcMI (a n : Byte) (s : State) : Host.Outcome State Fault Refusal :=
  instruction 3 (sbcOp (.mem a) (.imm n)) s

/-- `AND Rd,Rs` (R235). -/
def execAndRR (d r : Reg) (s : State) : Host.Outcome State Fault Refusal :=
  instruction 2 (andOp (.reg d) (.place (.reg r))) s

/-- `AND Rd,n` (R235). -/
def execAndRI (d : Reg) (n : Byte) (s : State) : Host.Outcome State Fault Refusal :=
  instruction 3 (andOp (.reg d) (.imm n)) s

/-- `AND Rd,(a)` (R235). -/
def execAndRM (d : Reg) (a : Byte) (s : State) : Host.Outcome State Fault Refusal :=
  instruction 3 (andOp (.reg d) (.place (.mem a))) s

/-- `AND (a),Rs` (R235). -/
def execAndMR (a : Byte) (r : Reg) (s : State) : Host.Outcome State Fault Refusal :=
  instruction 3 (andOp (.mem a) (.place (.reg r))) s

/-- `AND (a),(b)` (R235). -/
def execAndMM (a b : Byte) (s : State) : Host.Outcome State Fault Refusal :=
  instruction 3 (andOp (.mem a) (.place (.mem b))) s

/-- `AND (a),n` (R235). -/
def execAndMI (a n : Byte) (s : State) : Host.Outcome State Fault Refusal :=
  instruction 3 (andOp (.mem a) (.imm n)) s

/-- `OR Rd,Rs` (R236). -/
def execOrRR (d r : Reg) (s : State) : Host.Outcome State Fault Refusal :=
  instruction 2 (orOp (.reg d) (.place (.reg r))) s

/-- `OR Rd,n` (R236). -/
def execOrRI (d : Reg) (n : Byte) (s : State) : Host.Outcome State Fault Refusal :=
  instruction 3 (orOp (.reg d) (.imm n)) s

/-- `OR Rd,(a)` (R236). -/
def execOrRM (d : Reg) (a : Byte) (s : State) : Host.Outcome State Fault Refusal :=
  instruction 3 (orOp (.reg d) (.place (.mem a))) s

/-- `OR (a),Rs` (R236). -/
def execOrMR (a : Byte) (r : Reg) (s : State) : Host.Outcome State Fault Refusal :=
  instruction 3 (orOp (.mem a) (.place (.reg r))) s

/-- `OR (a),(b)` (R236). -/
def execOrMM (a b : Byte) (s : State) : Host.Outcome State Fault Refusal :=
  instruction 3 (orOp (.mem a) (.place (.mem b))) s

/-- `OR (a),n` (R236). -/
def execOrMI (a n : Byte) (s : State) : Host.Outcome State Fault Refusal :=
  instruction 3 (orOp (.mem a) (.imm n)) s

/-- `XOR Rd,Rs` (R237). -/
def execXorRR (d r : Reg) (s : State) : Host.Outcome State Fault Refusal :=
  instruction 2 (xorOp (.reg d) (.place (.reg r))) s

/-- `XOR Rd,n` (R237). -/
def execXorRI (d : Reg) (n : Byte) (s : State) : Host.Outcome State Fault Refusal :=
  instruction 3 (xorOp (.reg d) (.imm n)) s

/-- `XOR Rd,(a)` (R237). -/
def execXorRM (d : Reg) (a : Byte) (s : State) : Host.Outcome State Fault Refusal :=
  instruction 3 (xorOp (.reg d) (.place (.mem a))) s

/-- `XOR (a),Rs` (R237). -/
def execXorMR (a : Byte) (r : Reg) (s : State) : Host.Outcome State Fault Refusal :=
  instruction 3 (xorOp (.mem a) (.place (.reg r))) s

/-- `XOR (a),(b)` (R237). -/
def execXorMM (a b : Byte) (s : State) : Host.Outcome State Fault Refusal :=
  instruction 3 (xorOp (.mem a) (.place (.mem b))) s

/-- `XOR (a),n` (R237). -/
def execXorMI (a n : Byte) (s : State) : Host.Outcome State Fault Refusal :=
  instruction 3 (xorOp (.mem a) (.imm n)) s

/-- `CMP Rd,Rs` (R238). -/
def execCmpRR (d r : Reg) (s : State) : Host.Outcome State Fault Refusal :=
  instruction 2 (cmpOp (.reg d) (.place (.reg r))) s

/-- `CMP Rd,n` (R238). -/
def execCmpRI (d : Reg) (n : Byte) (s : State) : Host.Outcome State Fault Refusal :=
  instruction 3 (cmpOp (.reg d) (.imm n)) s

/-- `CMP Rd,(a)` (R238). -/
def execCmpRM (d : Reg) (a : Byte) (s : State) : Host.Outcome State Fault Refusal :=
  instruction 3 (cmpOp (.reg d) (.place (.mem a))) s

/-- `CMP (a),Rs` (R238). -/
def execCmpMR (a : Byte) (r : Reg) (s : State) : Host.Outcome State Fault Refusal :=
  instruction 3 (cmpOp (.mem a) (.place (.reg r))) s

/-- `CMP (a),(b)` (R238). -/
def execCmpMM (a b : Byte) (s : State) : Host.Outcome State Fault Refusal :=
  instruction 3 (cmpOp (.mem a) (.place (.mem b))) s

/-- `CMP (a),n` (R238). -/
def execCmpMI (a n : Byte) (s : State) : Host.Outcome State Fault Refusal :=
  instruction 3 (cmpOp (.mem a) (.imm n)) s

end Sys2Proof.Machine
end

