-- ==== Sys2Proof/Machine/BitOps.lean ====
section
/-! DEFINITION. The bit instructions, on a register and on a memory byte.
spec: 44_bit_ops.md R250 to R253. -/

namespace Sys2Proof.Machine

/-- `BITS Rr,m` (R251). -/
def execBitsR (r : Reg) (m : Byte) (s : State) : Host.Outcome State Fault Refusal :=
  instruction 2 (bitsOp (.reg r) m) s

/-- `BITS (a),m` (R251). -/
def execBitsM (a m : Byte) (s : State) : Host.Outcome State Fault Refusal :=
  instruction 3 (bitsOp (.mem a) m) s

/-- `BITC Rr,m` (R252). -/
def execBitcR (r : Reg) (m : Byte) (s : State) : Host.Outcome State Fault Refusal :=
  instruction 2 (bitcOp (.reg r) m) s

/-- `BITC (a),m` (R252). -/
def execBitcM (a m : Byte) (s : State) : Host.Outcome State Fault Refusal :=
  instruction 3 (bitcOp (.mem a) m) s

/-- `BITT Rr,m` (R253). -/
def execBittR (r : Reg) (m : Byte) (s : State) : Host.Outcome State Fault Refusal :=
  instruction 2 (bittOp (.reg r) m) s

/-- `BITT (a),m` (R253). -/
def execBittM (a m : Byte) (s : State) : Host.Outcome State Fault Refusal :=
  instruction 3 (bittOp (.mem a) m) s

end Sys2Proof.Machine
end

