-- ==== Sys2Proof/Machine/Control.lean ====
section
/-! DEFINITION. The control and flow instructions.
spec: 41_control_flow.md R200 to R213. In each body the PC already holds the next instruction's address. -/

namespace Sys2Proof.Machine

/-- `pc <- pop()` (R208). -/
def returnOp (s : State) : Except Fault State := do
  let (v, t) ← s.pop
  return t.setPc v

/-- `push(pc); pc <- t` (R207). -/
def callOp (t : Byte) (s : State) : Except Fault State := do
  let u ← s.push s.pc
  return u.setPc t

/-- `NOP` (R213): nothing beyond the fetch. -/
def execNop (s : State) : Host.Outcome State Fault Refusal :=
  instruction 1 (fun s => .ok s) s

/-- `STOP` (R210): the run state becomes `Stopped`, the PC stays at the next instruction. -/
def execStop (s : State) : Host.Outcome State Fault Refusal :=
  instruction 1 (fun s => .ok (s.setRun .stopped)) s

/-- `EI` (R211): IEF <- 1. -/
def execEi (s : State) : Host.Outcome State Fault Refusal :=
  instruction 1 (fun s => .ok (s.setIef true)) s

/-- `DI` (R212): IEF <- 0. -/
def execDi (s : State) : Host.Outcome State Fault Refusal :=
  instruction 1 (fun s => .ok (s.setIef false)) s

/-- `RET` (R208): pop the PC; no underflow check. -/
def execRet (s : State) : Host.Outcome State Fault Refusal :=
  instruction 1 returnOp s

/-- `RETI` (R209): pop the PC and set IEF; CF, ZF, NF and MISR are unchanged. -/
def execReti (s : State) : Host.Outcome State Fault Refusal :=
  instruction 1 State.returnFromInterrupt s

/-- `JR t` (R200): the PC takes the target. -/
def execJr (t : Byte) (s : State) : Host.Outcome State Fault Refusal :=
  instruction 2 (jumpIf true t) s

/-- `JZS t` (R201): jump if ZF = 1. -/
def execJzs (t : Byte) (s : State) : Host.Outcome State Fault Refusal :=
  instruction 2 (fun s => jumpIf s.flags.zf t s) s

/-- `JZC t` (R202): jump if ZF = 0. -/
def execJzc (t : Byte) (s : State) : Host.Outcome State Fault Refusal :=
  instruction 2 (fun s => jumpIf (!s.flags.zf) t s) s

/-- `JCS t` (R203): jump if CF = 1. -/
def execJcs (t : Byte) (s : State) : Host.Outcome State Fault Refusal :=
  instruction 2 (fun s => jumpIf s.flags.cf t s) s

/-- `JCC t` (R204): jump if CF = 0. -/
def execJcc (t : Byte) (s : State) : Host.Outcome State Fault Refusal :=
  instruction 2 (fun s => jumpIf (!s.flags.cf) t s) s

/-- `JNS t` (R205): jump if NF = 1. -/
def execJns (t : Byte) (s : State) : Host.Outcome State Fault Refusal :=
  instruction 2 (fun s => jumpIf s.flags.nf t s) s

/-- `JNC t` (R206): jump if NF = 0. -/
def execJnc (t : Byte) (s : State) : Host.Outcome State Fault Refusal :=
  instruction 2 (fun s => jumpIf (!s.flags.nf) t s) s

/-- `CALL t` (R207): push the next instruction's address, then jump. -/
def execCall (t : Byte) (s : State) : Host.Outcome State Fault Refusal :=
  instruction 2 (callOp t) s

end Sys2Proof.Machine
end

