-- ==== Sys2Proof/Machine/DataMove.lean ====
section
/-! DEFINITION. The data move instructions.
spec: 42_data_move.md R220 to R223. -/

namespace Sys2Proof.Machine

/-- `LDSP n` (R221): the value is not checked. -/
def execLdsp (n : Byte) (s : State) : Host.Outcome State Fault Refusal :=
  instruction 2 (fun s => .ok (s.setSp n)) s

/-- `MOV Rd,Rs` (R220). -/
def execMovRR (d r : Reg) (s : State) : Host.Outcome State Fault Refusal :=
  instruction 2 (moveOp (.reg d) (.place (.reg r))) s

/-- `MOV Rd,n` (R220). -/
def execMovRI (d : Reg) (n : Byte) (s : State) : Host.Outcome State Fault Refusal :=
  instruction 3 (moveOp (.reg d) (.imm n)) s

/-- `MOV Rd,(a)` (R220). -/
def execMovRM (d : Reg) (a : Byte) (s : State) : Host.Outcome State Fault Refusal :=
  instruction 3 (moveOp (.reg d) (.place (.mem a))) s

/-- `MOV (a),Rs` (R220). -/
def execMovMR (a : Byte) (r : Reg) (s : State) : Host.Outcome State Fault Refusal :=
  instruction 3 (moveOp (.mem a) (.place (.reg r))) s

/-- `MOV (a),(b)` (R220). -/
def execMovMM (a b : Byte) (s : State) : Host.Outcome State Fault Refusal :=
  instruction 3 (moveOp (.mem a) (.place (.mem b))) s

/-- `MOV (a),n` (R220). -/
def execMovMI (a n : Byte) (s : State) : Host.Outcome State Fault Refusal :=
  instruction 3 (moveOp (.mem a) (.imm n)) s

/-- `LD Rd,(a)` (R222): a pseudo-instruction for `MOV Rd,(a)`, R132. -/
def execLd (d : Reg) (a : Byte) (s : State) : Host.Outcome State Fault Refusal :=
  instruction 3 (moveOp (.reg d) (.place (.mem a))) s

/-- `ST (a),Rs` (R223): a pseudo-instruction for `MOV (a),Rs`, R132. -/
def execSt (a : Byte) (r : Reg) (s : State) : Host.Outcome State Fault Refusal :=
  instruction 3 (moveOp (.mem a) (.place (.reg r))) s

end Sys2Proof.Machine
end

