-- ==== Sys2Proof/Machine/Dispatch.lean ====
section
/-! DEFINITION. One arm for each instruction: its meaning. The state is the one at the instruction's own address; the
meaning moves the PC past the instruction (30_encoding.md R118). -/

namespace Sys2Proof.Machine

/-- The effect of one instruction, from the state at its first byte (30_encoding.md R118, `Execute`). -/
def exec (i : Instr) (s : State) : Host.Outcome State Fault Refusal :=
  match i with
  | .nop => Sys2Proof.Machine.execNop s
  | .stop => Sys2Proof.Machine.execStop s
  | .ei => Sys2Proof.Machine.execEi s
  | .di => Sys2Proof.Machine.execDi s
  | .ret => Sys2Proof.Machine.execRet s
  | .reti => Sys2Proof.Machine.execReti s
  | .jr t => Sys2Proof.Machine.execJr t s
  | .jzs t => Sys2Proof.Machine.execJzs t s
  | .jzc t => Sys2Proof.Machine.execJzc t s
  | .jcs t => Sys2Proof.Machine.execJcs t s
  | .jcc t => Sys2Proof.Machine.execJcc t s
  | .jns t => Sys2Proof.Machine.execJns t s
  | .jnc t => Sys2Proof.Machine.execJnc t s
  | .call t => Sys2Proof.Machine.execCall t s
  | .ldsp n => Sys2Proof.Machine.execLdsp n s
  | .bitsR r m => Sys2Proof.Machine.execBitsR r m s
  | .bitsM a m => Sys2Proof.Machine.execBitsM a m s
  | .bitcR r m => Sys2Proof.Machine.execBitcR r m s
  | .bitcM a m => Sys2Proof.Machine.execBitcM a m s
  | .bittR r m => Sys2Proof.Machine.execBittR r m s
  | .bittM a m => Sys2Proof.Machine.execBittM a m s
  | .incR r => Sys2Proof.Machine.execIncR r s
  | .incM a => Sys2Proof.Machine.execIncM a s
  | .decR r => Sys2Proof.Machine.execDecR r s
  | .decM a => Sys2Proof.Machine.execDecM a s
  | .clrR r => Sys2Proof.Machine.execClrR r s
  | .clrM a => Sys2Proof.Machine.execClrM a s
  | .notR r => Sys2Proof.Machine.execNotR r s
  | .notM a => Sys2Proof.Machine.execNotM a s
  | .shlR r => Sys2Proof.Machine.execShlR r s
  | .shlM a => Sys2Proof.Machine.execShlM a s
  | .shrR r => Sys2Proof.Machine.execShrR r s
  | .shrM a => Sys2Proof.Machine.execShrM a s
  | .asrR r => Sys2Proof.Machine.execAsrR r s
  | .asrM a => Sys2Proof.Machine.execAsrM a s
  | .tstR r => Sys2Proof.Machine.execTstR r s
  | .tstM a => Sys2Proof.Machine.execTstM a s
  | .movRR d r => Sys2Proof.Machine.execMovRR d r s
  | .movRI d n => Sys2Proof.Machine.execMovRI d n s
  | .movRM d a => Sys2Proof.Machine.execMovRM d a s
  | .movMR a r => Sys2Proof.Machine.execMovMR a r s
  | .movMM a b => Sys2Proof.Machine.execMovMM a b s
  | .movMI a n => Sys2Proof.Machine.execMovMI a n s
  | .addRR d r => Sys2Proof.Machine.execAddRR d r s
  | .addRI d n => Sys2Proof.Machine.execAddRI d n s
  | .addRM d a => Sys2Proof.Machine.execAddRM d a s
  | .addMR a r => Sys2Proof.Machine.execAddMR a r s
  | .addMM a b => Sys2Proof.Machine.execAddMM a b s
  | .addMI a n => Sys2Proof.Machine.execAddMI a n s
  | .adcRR d r => Sys2Proof.Machine.execAdcRR d r s
  | .adcRI d n => Sys2Proof.Machine.execAdcRI d n s
  | .adcRM d a => Sys2Proof.Machine.execAdcRM d a s
  | .adcMR a r => Sys2Proof.Machine.execAdcMR a r s
  | .adcMM a b => Sys2Proof.Machine.execAdcMM a b s
  | .adcMI a n => Sys2Proof.Machine.execAdcMI a n s
  | .subRR d r => Sys2Proof.Machine.execSubRR d r s
  | .subRI d n => Sys2Proof.Machine.execSubRI d n s
  | .subRM d a => Sys2Proof.Machine.execSubRM d a s
  | .subMR a r => Sys2Proof.Machine.execSubMR a r s
  | .subMM a b => Sys2Proof.Machine.execSubMM a b s
  | .subMI a n => Sys2Proof.Machine.execSubMI a n s
  | .sbcRR d r => Sys2Proof.Machine.execSbcRR d r s
  | .sbcRI d n => Sys2Proof.Machine.execSbcRI d n s
  | .sbcRM d a => Sys2Proof.Machine.execSbcRM d a s
  | .sbcMR a r => Sys2Proof.Machine.execSbcMR a r s
  | .sbcMM a b => Sys2Proof.Machine.execSbcMM a b s
  | .sbcMI a n => Sys2Proof.Machine.execSbcMI a n s
  | .andRR d r => Sys2Proof.Machine.execAndRR d r s
  | .andRI d n => Sys2Proof.Machine.execAndRI d n s
  | .andRM d a => Sys2Proof.Machine.execAndRM d a s
  | .andMR a r => Sys2Proof.Machine.execAndMR a r s
  | .andMM a b => Sys2Proof.Machine.execAndMM a b s
  | .andMI a n => Sys2Proof.Machine.execAndMI a n s
  | .orRR d r => Sys2Proof.Machine.execOrRR d r s
  | .orRI d n => Sys2Proof.Machine.execOrRI d n s
  | .orRM d a => Sys2Proof.Machine.execOrRM d a s
  | .orMR a r => Sys2Proof.Machine.execOrMR a r s
  | .orMM a b => Sys2Proof.Machine.execOrMM a b s
  | .orMI a n => Sys2Proof.Machine.execOrMI a n s
  | .xorRR d r => Sys2Proof.Machine.execXorRR d r s
  | .xorRI d n => Sys2Proof.Machine.execXorRI d n s
  | .xorRM d a => Sys2Proof.Machine.execXorRM d a s
  | .xorMR a r => Sys2Proof.Machine.execXorMR a r s
  | .xorMM a b => Sys2Proof.Machine.execXorMM a b s
  | .xorMI a n => Sys2Proof.Machine.execXorMI a n s
  | .cmpRR d r => Sys2Proof.Machine.execCmpRR d r s
  | .cmpRI d n => Sys2Proof.Machine.execCmpRI d n s
  | .cmpRM d a => Sys2Proof.Machine.execCmpRM d a s
  | .cmpMR a r => Sys2Proof.Machine.execCmpMR a r s
  | .cmpMM a b => Sys2Proof.Machine.execCmpMM a b s
  | .cmpMI a n => Sys2Proof.Machine.execCmpMI a n s
  | .ld d a => Sys2Proof.Machine.execLd d a s
  | .st a r => Sys2Proof.Machine.execSt a r s

end Sys2Proof.Machine
end

