-- ==== Sys2Proof/Machine/Cycle.lean ====
section
/-! DEFINITION. The instruction cycle of the I-level.
spec: 30_encoding.md R118, R121; 60_exceptions.md R310, R311, R313, R318. -/

namespace Sys2Proof.Machine

/-- `StepI()` in `Running` (R118): sample the inputs; a due interrupt's entry is the whole step; otherwise fetch and run
one instruction. An error leaves the state after the samples but for the run state (R121). -/
def stepRunning (s : State) : Host.Outcome State Fault Refusal :=
  let t := s.sampleInputs
  match t.dueSource with
  | some i => .next (t.orRaise (t.enterInterrupt i))
  | none =>
    match t.fetch with
    | .error e => .next (t.raise e)
    | .ok i => exec i t

/-- RAM with byte `k` of the number `w` put at the address `k` past `a`, where that address lies in RAM. -/
def placeByte (a : Byte) (w : Nat) (m : Memory) (k : Nat) : Memory :=
  if (a + BitVec.ofNat 8 k).toNat < Config.ramSize then m.write (a + BitVec.ofNat 8 k).toNat (byteOf w k) else m

/-- RAM with the three low bytes of `w` from `a` on. -/
def placeBytes (m : Memory) (a : Byte) (w : Nat) : Memory :=
  placeByte a w (placeByte a w (placeByte a w m 0) 1) 2

end Sys2Proof.Machine
end

