-- ==== Sys2Proof/Machine/Step.lean ====
section
/-! DEFINITION. One I-level step, and how an instruction is placed where the step fetches.
spec: 30_encoding.md R118; 00_scope.md R9 and 70_reset_and_hazards.md R345 (no step outside `Running`). -/

namespace Sys2Proof.Machine

/-- One I-level step: `StepI()` in `Running`, nothing in `Stopped` and `ErrorHalted` (R118; 00_scope.md R9). -/
def step (s : State) : Host.Outcome State Fault Refusal :=
  match s.run with
  | .running => stepRunning s
  | .stopped => .next s
  | .errorHalted _ => .next s

/-- The state with the low `nbits` bits of `w` in RAM at the PC, byte 0 first, and zeros above them up to three bytes.
The next step fetches exactly that instruction when the core is `Running`, no interrupt is due and the PC is at most
0xED; after reset it is at 0x00 (log entry 1). -/
def State.withFetchWord (s : State) (nbits w : Nat) : State :=
  { s with ram := placeBytes s.ram s.pc (w % 2 ^ nbits) }

end Sys2Proof.Machine
end

