-- ==== Sys2Proof/Machine/Assembler.lean ====
section
/-! DEFINITION. The assembler syntax and the image it stands for.
spec: 30_encoding.md R125 to R132 (header, lines, numbers, operands, directives, image, recorded parameters,
pseudo-instructions). 00_scope.md R3 leaves the original translator's algorithms and diagnostics out; what is here
is only what R125 to R132 say of a source text and its image. Text is a list of characters. -/

namespace Sys2Proof.Machine

/-- An identifier (R126). -/
abbrev Name := List Char

/-- The mnemonics of R128 and the two pseudo-instructions of R132. -/
inductive Mnemonic where
  | nop_ | stop_ | ei_ | di_ | ret_ | reti_ | jr_ | jzs_ | jzc_ | jcs_ | jcc_ | jns_ | jnc_ | call_ | ldsp_
  | bits_ | bitc_ | bitt_ | inc_ | dec_ | clr_ | not_ | shl_ | shr_ | asr_ | tst_ | mov_ | add_ | adc_
  | sub_ | sbc_ | and_ | or_ | xor_ | cmp_ | ld_ | st_
  deriving DecidableEq, Repr

/-- A mnemonic and its spelling in capitals (R128). -/
def mnemonicTable : List (Name × Mnemonic) :=
  [(['N', 'O', 'P'], .nop_), (['S', 'T', 'O', 'P'], .stop_), (['E', 'I'], .ei_),
   (['D', 'I'], .di_), (['R', 'E', 'T'], .ret_), (['R', 'E', 'T', 'I'], .reti_),
   (['J', 'R'], .jr_), (['J', 'Z', 'S'], .jzs_), (['J', 'Z', 'C'], .jzc_),
   (['J', 'C', 'S'], .jcs_), (['J', 'C', 'C'], .jcc_), (['J', 'N', 'S'], .jns_),
   (['J', 'N', 'C'], .jnc_), (['C', 'A', 'L', 'L'], .call_), (['L', 'D', 'S', 'P'], .ldsp_),
   (['B', 'I', 'T', 'S'], .bits_), (['B', 'I', 'T', 'C'], .bitc_), (['B', 'I', 'T', 'T'], .bitt_),
   (['I', 'N', 'C'], .inc_), (['D', 'E', 'C'], .dec_), (['C', 'L', 'R'], .clr_),
   (['N', 'O', 'T'], .not_), (['S', 'H', 'L'], .shl_), (['S', 'H', 'R'], .shr_),
   (['A', 'S', 'R'], .asr_), (['T', 'S', 'T'], .tst_), (['M', 'O', 'V'], .mov_),
   (['A', 'D', 'D'], .add_), (['A', 'D', 'C'], .adc_), (['S', 'U', 'B'], .sub_),
   (['S', 'B', 'C'], .sbc_), (['A', 'N', 'D'], .and_), (['O', 'R'], .or_),
   (['X', 'O', 'R'], .xor_), (['C', 'M', 'P'], .cmp_), (['L', 'D'], .ld_),
   (['S', 'T'], .st_)]

/-- A number or an identifier, where the syntax allows either (R127, R128). -/
inductive AsmExpr where
  | num (n : Nat)
  | name (x : Name)
  deriving DecidableEq, Repr

/-- An operand as written (R128). -/
inductive AsmOperand where
  | reg (r : Reg)
  | value (e : AsmExpr)
  | mem (e : AsmExpr)
  deriving DecidableEq, Repr

/-- The argument of `*STACKSIZE` (R131). -/
inductive StackArg where
  | size (s : StackSize)
  | noSet
  | auto
  deriving DecidableEq, Repr

/-- The argument of `*PROGRAMSIZE` (R131). -/
inductive BoundArg where
  | size (n : Nat)
  | noSet
  | auto
  deriving DecidableEq, Repr

/-- A statement of a line (R126, R128, R129, R131). -/
inductive AsmStatement where
  | instr (m : Mnemonic) (ops : List AsmOperand)
  | org (n : Nat)
  | db (ns : List Nat)
  | equ (x : Name) (e : AsmExpr)
  | stackSize (a : StackArg)
  | programSize (a : BoundArg)
  deriving DecidableEq, Repr

/-- `Label? Statement?`, the comment dropped (R126). -/
structure AsmLine where
  label : Option Name
  statement : Option AsmStatement
  deriving DecidableEq, Repr

/-- Why a source text has no image. -/
inductive TranslatorError where
  /-- The first line is not the header (R125). -/
  | missingHeader
  /-- A line is not `Label? Statement? Comment?`, or its operands select no form (R126, R128). -/
  | badLine
  /-- A label is bound twice, or a name is both a label and an `.EQU` name (R126; log entry 14). -/
  | duplicateLabel (x : Name)
  /-- An identifier is never bound, or an `.EQU` uses one not yet bound (R128, R129). -/
  | undefinedName (x : Name)
  /-- An operand is not 0..255 (R127). -/
  | valueRange
  /-- `.ORG` moves the cursor back into emitted bytes (R129). -/
  | orgBackwards
  /-- A byte lands beyond 0xEF (R130). -/
  | outOfRange
  deriving DecidableEq, Repr

/-! ### Reading a line -/

/-- A blank character inside a line: space, tab or carriage return (log entry 17; DESIGN CHOICE: R126 names "whitespace"
only). -/
def isBlank (c : Char) : Bool := c == ' ' || c == '\t' || c == '\r'

/-- Text without the blanks at both ends. R126 allows trailing whitespace; that leading blanks, and blanks around an operand,
a comma or inside parentheses are allowed too is the model's choice (log entry 17; DESIGN CHOICE). -/
def trim (cs : List Char) : List Char := ((cs.dropWhile isBlank).reverse.dropWhile isBlank).reverse

/-- The text cut at every `c`. -/
def splitAtChar (c : Char) : List Char → List (List Char)
  | [] => [[]]
  | x :: xs =>
    if x = c then [] :: splitAtChar c xs
    else match splitAtChar c xs with
      | [] => [[x]]
      | w :: ws => (x :: w) :: ws

/-- A character an identifier may begin with (R126). R125 makes the source UTF-8 and R126 says "letters": that these are the
ASCII letters alone is the model's choice (log entry 17; DESIGN CHOICE). -/
def isNameStart (c : Char) : Bool := c.isAlpha || c == '_'

/-- A character an identifier may go on with (R126): ASCII letters and digits alone, as for `isNameStart` (log entry 17; DESIGN
CHOICE). -/
def isNameChar (c : Char) : Bool := c.isAlphanum || c == '_'

/-- An identifier: letters, digits and `_`, not starting with a digit (R126). -/
def parseName : List Char → Option Name
  | [] => none
  | c :: cs => if isNameStart c && cs.all isNameChar then some (c :: cs) else none

/-- The value of a digit, in either case of its letter. -/
def digitValue (c : Char) : Nat :=
  if c.isDigit then c.toNat - '0'.toNat
  else if 'a' ≤ c ∧ c ≤ 'f' then c.toNat - 'a'.toNat + 10
  else if 'A' ≤ c ∧ c ≤ 'F' then c.toNat - 'A'.toNat + 10
  else 99

/-- The number whose digits are given, after `acc`. -/
def digitsFrom (base : Nat) : Nat → List Char → Option Nat
  | acc, [] => some acc
  | acc, c :: cs => if digitValue c < base then digitsFrom base (acc * base + digitValue c) cs else none

/-- The number whose digits are given; none for no digits. -/
def digits (base : Nat) (cs : List Char) : Option Nat := if cs.isEmpty then none else digitsFrom base 0 cs

/-- A decimal, hexadecimal (`0x`) or binary (`0b`) number (R127); the prefixes as spelled, the digits A to F in either case,
leading zeros allowed (log entry 17; DESIGN CHOICE). -/
def parseNumber : List Char → Option Nat
  | '0' :: 'x' :: cs => digits 16 cs
  | '0' :: 'b' :: cs => digits 2 cs
  | cs => digits 10 cs

/-- A number or an identifier. -/
def parseExpr (cs : List Char) : Option AsmExpr :=
  match parseNumber cs with
  | some n => some (.num n)
  | none => (parseName cs).map .name

/-- R0, R1, R2 or R3, in either case (R126, R128). -/
def parseReg : List Char → Option Reg
  | [c, k] =>
    if c.toUpper = 'R' then
      match k with
      | '0' => some .r0
      | '1' => some .r1
      | '2' => some .r2
      | '3' => some .r3
      | _ => none
    else none
  | _ => none

/-- The text between an opening and a closing parenthesis. -/
def inParens : List Char → Option (List Char)
  | '(' :: cs =>
    match cs.reverse with
    | ')' :: inner => some (trim inner.reverse)
    | _ => none
  | _ => none

/-- An operand (R128). A bare R0..R3 is the register, also where a label or an `.EQU` has bound that name, which R128 does not
exclude; inside parentheses such a name is the identifier (log entry 17; DESIGN CHOICE). -/
def parseOperand (text : List Char) : Option AsmOperand :=
  let cs := trim text
  match parseReg cs, inParens cs with
  | some r, _ => some (.reg r)
  | none, some inner => (parseExpr inner).map .mem
  | none, none => (parseExpr cs).map .value

/-- The operands of a statement, separated by commas; none for an empty text. -/
def parseOperands (text : List Char) : Option (List AsmOperand) :=
  if (trim text).isEmpty then some [] else (splitAtChar ',' text).mapM parseOperand

/-- The first word of a text and the rest. The word ends at a blank, so a mnemonic or a directive must be separated from what
follows it by one, and `INC(0x80)` is no line: R126 and R128 do not say whether it must (log entry 17; DESIGN CHOICE). -/
def firstWord (cs : List Char) : List Char × List Char :=
  (cs.takeWhile fun c => !isBlank c, trim (cs.dropWhile fun c => !isBlank c))

/-- The argument of `*STACKSIZE`: 16, 32, 48, 64, 0, `NOSET` or `AUTO` (R131). -/
def parseStackArg (cs : List Char) : Option StackArg :=
  if cs = ['N', 'O', 'S', 'E', 'T'] then some .noSet
  else if cs = ['A', 'U', 'T', 'O'] then some .auto
  else match parseNumber cs with
    | some 0 => some (.size .s0)
    | some 16 => some (.size .s16)
    | some 32 => some (.size .s32)
    | some 48 => some (.size .s48)
    | some 64 => some (.size .s64)
    | _ => none

/-- The argument of `*PROGRAMSIZE`: a number, `AUTO` or `NOSET` (R131). -/
def parseBoundArg (cs : List Char) : Option BoundArg :=
  if cs = ['N', 'O', 'S', 'E', 'T'] then some .noSet
  else if cs = ['A', 'U', 'T', 'O'] then some .auto
  else (parseNumber cs).map .size

/-- `.EQU IDENT VAL` (R129); the value is checked against 0..255 where an operand uses it (R127). -/
def parseEqu (cs : List Char) : Option AsmStatement :=
  let (x, v) := firstWord cs
  match parseName x, parseExpr v with
  | some n, some e => some (.equ n e)
  | _, _ => none

/-- A directive or an instruction (R126, R128, R129, R131). -/
def parseStatement (cs : List Char) : Option AsmStatement :=
  let (w, rest) := firstWord cs
  if w = ['.', 'O', 'R', 'G'] then (parseNumber rest).map .org
  else if w = ['.', 'D', 'B'] then
    ((splitAtChar ',' rest).mapM fun x => parseNumber (trim x)).map .db
  else if w = ['.', 'E', 'Q', 'U'] then parseEqu rest
  else if w = ['*', 'S', 'T', 'A', 'C', 'K', 'S', 'I', 'Z', 'E'] then (parseStackArg rest).map .stackSize
  else if w = ['*', 'P', 'R', 'O', 'G', 'R', 'A', 'M', 'S', 'I', 'Z', 'E'] then (parseBoundArg rest).map .programSize
  else match mnemonicTable.lookup (w.map Char.toUpper), parseOperands rest with
    | some m, some ops => some (.instr m ops)
    | _, _ => none

/-- The label of a line and the text after it: an identifier followed by `:` (R126). -/
def takeLabel (cs : List Char) : Option Name × List Char :=
  match parseName (cs.takeWhile isNameChar), cs.dropWhile isNameChar with
  | some x, ':' :: rest => (some x, trim rest)
  | _, _ => (none, cs)

/-- `Label? Statement? Comment?`; a comment starts with `;` (R126). -/
def parseLine (text : List Char) : Except TranslatorError AsmLine :=
  let (label, rest) := takeLabel (trim (text.takeWhile fun c => c != ';'))
  if rest.isEmpty then .ok ⟨label, none⟩
  else match parseStatement rest with
    | some st => .ok ⟨label, some st⟩
    | none => .error .badLine

/-- The header line `#! mrasm` (R125). -/
def headerLine : List Char := ['#', '!', ' ', 'm', 'r', 'a', 's', 'm']

/-- The lines of a source text after its header (R125, R126). The header may have blanks before it as well as after it: R125
speaks of the line `#! mrasm`, and of blanks R126 allows trailing ones only (log entry 17; DESIGN CHOICE). The last line needs
no line feed: R126 ends a line with EOL and does not say whether the end of the text is one (log entry 17; DESIGN CHOICE). -/
def parseSource (text : List Char) : Except TranslatorError (List AsmLine) :=
  match splitAtChar '\n' text with
  | [] => .error .missingHeader
  | h :: ls => if trim h = headerLine then ls.mapM parseLine else .error .missingHeader

/-! ### Choosing an instruction -/

/-- An operand whose identifiers are resolved. -/
inductive AsmValue where
  | reg (r : Reg)
  | value (n : Byte)
  | mem (a : Byte)
  deriving DecidableEq, Repr

/-- The six operand combinations of a two-operand instruction (R128). -/
def chooseTwo (rr : Reg → Reg → Instr) (ri rm : Reg → Byte → Instr) (mr : Byte → Reg → Instr)
    (mm mi : Byte → Byte → Instr) : List AsmValue → Option Instr
  | [.reg d, .reg r] => some (rr d r)
  | [.reg d, .value n] => some (ri d n)
  | [.reg d, .mem a] => some (rm d a)
  | [.mem a, .reg r] => some (mr a r)
  | [.mem a, .mem b] => some (mm a b)
  | [.mem a, .value n] => some (mi a n)
  | _ => none

/-- The two operand forms of a one-operand instruction (R128). -/
def chooseOne (reg : Reg → Instr) (mem : Byte → Instr) : List AsmValue → Option Instr
  | [.reg r] => some (reg r)
  | [.mem a] => some (mem a)
  | _ => none

/-- The two operand combinations of a bit instruction (R128). -/
def chooseBit (reg : Reg → Byte → Instr) (mem : Byte → Byte → Instr) : List AsmValue → Option Instr
  | [.reg r, .value m] => some (reg r m)
  | [.mem a, .value m] => some (mem a m)
  | _ => none

/-- One immediate operand or target (R128). -/
def chooseByte (f : Byte → Instr) : List AsmValue → Option Instr
  | [.value n] => some (f n)
  | _ => none

/-- No operand (R128). -/
def chooseNone (i : Instr) : List AsmValue → Option Instr
  | [] => some i
  | _ => none

/-- The instruction a mnemonic and its operands select; any other combination is an error (R128, R132). -/
def chooseInstr : Mnemonic → List AsmValue → Option Instr
  | .nop_ => chooseNone .nop
  | .stop_ => chooseNone .stop
  | .ei_ => chooseNone .ei
  | .di_ => chooseNone .di
  | .ret_ => chooseNone .ret
  | .reti_ => chooseNone .reti
  | .jr_ => chooseByte .jr
  | .jzs_ => chooseByte .jzs
  | .jzc_ => chooseByte .jzc
  | .jcs_ => chooseByte .jcs
  | .jcc_ => chooseByte .jcc
  | .jns_ => chooseByte .jns
  | .jnc_ => chooseByte .jnc
  | .call_ => chooseByte .call
  | .ldsp_ => chooseByte .ldsp
  | .bits_ => chooseBit .bitsR .bitsM
  | .bitc_ => chooseBit .bitcR .bitcM
  | .bitt_ => chooseBit .bittR .bittM
  | .inc_ => chooseOne .incR .incM
  | .dec_ => chooseOne .decR .decM
  | .clr_ => chooseOne .clrR .clrM
  | .not_ => chooseOne .notR .notM
  | .shl_ => chooseOne .shlR .shlM
  | .shr_ => chooseOne .shrR .shrM
  | .asr_ => chooseOne .asrR .asrM
  | .tst_ => chooseOne .tstR .tstM
  | .mov_ => chooseTwo .movRR .movRI .movRM .movMR .movMM .movMI
  | .add_ => chooseTwo .addRR .addRI .addRM .addMR .addMM .addMI
  | .adc_ => chooseTwo .adcRR .adcRI .adcRM .adcMR .adcMM .adcMI
  | .sub_ => chooseTwo .subRR .subRI .subRM .subMR .subMM .subMI
  | .sbc_ => chooseTwo .sbcRR .sbcRI .sbcRM .sbcMR .sbcMM .sbcMI
  | .and_ => chooseTwo .andRR .andRI .andRM .andMR .andMM .andMI
  | .or_ => chooseTwo .orRR .orRI .orRM .orMR .orMM .orMI
  | .xor_ => chooseTwo .xorRR .xorRI .xorRM .xorMR .xorMM .xorMI
  | .cmp_ => chooseTwo .cmpRR .cmpRI .cmpRM .cmpMR .cmpMM .cmpMI
  | .ld_ => fun
    | [.reg d, .mem a] => some (.ld d a)
    | _ => none
  | .st_ => fun
    | [.mem a, .reg r] => some (.st a r)
    | _ => none

/-! ### Laying out and emitting -/

/-- A name, its value, and whether it is a label. -/
structure Symbol where
  name : Name
  value : Nat
  isLabel : Bool
  deriving DecidableEq, Repr

/-- The symbol of a name; the latest binding comes first (R126). -/
def findSymbol (tab : List Symbol) (x : Name) : Option Symbol := tab.find? fun e => e.name == x

/-- The value of a number or of a bound identifier (R127, R128). -/
def resolveExpr (tab : List Symbol) : AsmExpr → Except TranslatorError Nat
  | .num n => .ok n
  | .name x =>
    match findSymbol tab x with
    | some e => .ok e.value
    | none => .error (.undefinedName x)

/-- The byte of an operand's number or identifier, which must be 0..255 (R127). -/
def resolveByte (tab : List Symbol) (e : AsmExpr) : Except TranslatorError Byte := do
  let n ← resolveExpr tab e
  if n < 256 then .ok (BitVec.ofNat 8 n) else .error .valueRange

/-- An operand with its identifiers resolved. -/
def resolveOperand (tab : List Symbol) : AsmOperand → Except TranslatorError AsmValue
  | .reg r => .ok (.reg r)
  | .value e => do return .value (← resolveByte tab e)
  | .mem e => do return .mem (← resolveByte tab e)

/-- An operand with 0 for what is not resolved yet: a form's length does not depend on it. -/
def AsmOperand.shape : AsmOperand → AsmValue
  | .reg r => .reg r
  | .value _ => .value 0
  | .mem _ => .mem 0

/-- What a line emits at an address. -/
inductive Emission where
  | bytes (ns : List Nat)
  | instr (m : Mnemonic) (ops : List AsmOperand)
  deriving DecidableEq, Repr

/-- The directive in force for `PROGRAM_BOUND` (R131). -/
inductive BoundSetting where
  | none
  | size (n : Nat)
  | auto
  deriving DecidableEq, Repr

/-- The layout so far: the cursor, one past the highest address emitted, the symbols, the emissions in reverse order, and
the parameters in force (R126, R129, R131). -/
structure Layout where
  cursor : Nat
  emitted : Nat
  symbols : List Symbol
  items : List (Nat × Emission)
  stackSize : StackSize
  bound : BoundSetting
  deriving DecidableEq, Repr

/-- Nothing laid out: `STACKSIZE` 16 and no bound are in force (R131). -/
def Layout.empty : Layout := ⟨0, 0, [], [], .s16, .none⟩

/-- `n` bytes at the cursor; a byte beyond 0xEF is an error (R130). -/
def Layout.emit (l : Layout) (n : Nat) (e : Emission) : Except TranslatorError Layout :=
  if Config.ramSize < l.cursor + n then .error .outOfRange
  else .ok { l with
    cursor := l.cursor + n, emitted := max l.emitted (l.cursor + n), items := (l.cursor, e) :: l.items }

/-- A label binds to the address where the next byte would be emitted, and is unique (R126). -/
def Layout.bindLabel (l : Layout) (x : Name) : Except TranslatorError Layout :=
  match findSymbol l.symbols x with
  | some _ => .error (.duplicateLabel x)
  | none => .ok { l with symbols := ⟨x, l.cursor, true⟩ :: l.symbols }

/-- `.EQU` binds a name to a number or to the value of a name already bound; a later `.EQU` of the name overrides an
earlier one (R126, R129). -/
def Layout.bindEqu (l : Layout) (x : Name) (e : AsmExpr) : Except TranslatorError Layout := do
  let n ← resolveExpr l.symbols e
  match findSymbol l.symbols x with
  | some ⟨_, _, true⟩ => .error (.duplicateLabel x)
  | _ => .ok { l with symbols := ⟨x, n, false⟩ :: l.symbols }

/-- A statement laid out at the cursor. `.ORG` may move it to no address at or below the highest byte emitted, a gap
included (R129, with the vector of 95_test_vectors.md 3.4 that rejects `.ORG 0x10`, `NOP`, `.ORG 0x08`). -/
def Layout.place (l : Layout) : AsmStatement → Except TranslatorError Layout
  | .instr m ops =>
    match chooseInstr m (ops.map AsmOperand.shape) with
    | some i => l.emit i.length (.instr m ops)
    | none => .error .badLine
  | .org n => if n < l.emitted then .error .orgBackwards else .ok { l with cursor := n }
  | .db ns => if ns.all (· < 256) then l.emit ns.length (.bytes ns) else .error .valueRange
  | .equ x e => l.bindEqu x e
  | .stackSize (.size s) => .ok { l with stackSize := s }
  | .stackSize .noSet => .ok l
  | .stackSize .auto => .ok { l with stackSize := .s16 }
  | .programSize (.size n) => if n < 256 then .ok { l with bound := .size n } else .error .valueRange
  | .programSize .noSet => .ok l
  | .programSize .auto => .ok { l with bound := .auto }

/-- A line laid out: its label, then its statement. A label on the line of an `.ORG`, or on a line of its own
before it, binds to the cursor before the move: R126
binds it to "the address where the next byte would be emitted" and does not say whether the move counts (log entry 17; DESIGN
CHOICE, unsafe for which image such a source gives). -/
def Layout.line (l : Layout) (ln : AsmLine) : Except TranslatorError Layout := do
  let m ← match ln.label with
    | some x => l.bindLabel x
    | none => .ok l
  match ln.statement with
  | some st => m.place st
  | none => .ok m

/-- The lines laid out in order. -/
def Layout.lines : Layout → List AsmLine → Except TranslatorError Layout
  | l, [] => .ok l
  | l, ln :: rest => do
    let m ← l.line ln
    m.lines rest

/-- The bytes of an emission, with every identifier at its value in the finished symbol table (log entry 14). -/
def emissionBytes (tab : List Symbol) : Emission → Except TranslatorError (List Byte)
  | .bytes ns => .ok (ns.map (BitVec.ofNat 8))
  | .instr m ops => do
    let vs ← ops.mapM (resolveOperand tab)
    match chooseInstr m vs with
    | some i => .ok (encode i)
    | none => .error .badLine

/-- The memory with bytes written from an address on. -/
def writeBytes : Memory → Nat → List Byte → Memory
  | mem, _, [] => mem
  | mem, a, v :: vs => writeBytes (mem.write a v) (a + 1) vs

/-- The memory after the emissions, the first one last in the list. -/
def writeItems (tab : List Symbol) : List (Nat × Emission) → Except TranslatorError Memory
  | [] => .ok []
  | (a, e) :: rest => do
    let mem ← writeItems tab rest
    let vs ← emissionBytes tab e
    return writeBytes mem a vs

/-- `PROGRAM_BOUND` as recorded: `AUTO` gives one past the highest address emitted (R131). -/
def Layout.programBound (l : Layout) : Option Byte :=
  match l.bound with
  | .none => Option.none
  | .size n => some (BitVec.ofNat 8 n)
  | .auto => some (BitVec.ofNat 8 l.emitted)

/-- The image of parsed lines, with its recorded `STACKSIZE` and `PROGRAM_BOUND`; unfilled bytes are zero (R130, R131).
`STRICT_IO` is the host's to choose. -/
def assembleLines (strictIo : Bool) (ls : List AsmLine) : Except TranslatorError BootConfig := do
  let l ← Layout.empty.lines ls
  let image ← writeItems l.symbols l.items
  return ⟨image, l.stackSize, l.programBound, strictIo⟩

/-- The image of a source text (R125 to R132). -/
def assemble (strictIo : Bool) (text : List Char) : Except TranslatorError BootConfig := do
  let ls ← parseSource text
  assembleLines strictIo ls

end Sys2Proof.Machine
end

