-- ==== Sys2Proof/Machine/Micro.lean ====
section
/-! DEFINITION. The M-level: the half-cycle machine driven by control words.
spec: 40_datapath.md R140 to R170; 60_exceptions.md R302, R310, R313 (errors and interrupts at the M-level).

Everything no source gives is the argument `p : MicroParams` (00_scope.md R4, R5). -/

namespace Sys2Proof.Machine

/-- The reference numbering of the ALU functions (R145). -/
def referenceAluCode (v : BitVec 4) : AluFn :=
  match v.toNat with
  | 0 => .add | 1 => .sub | 2 => .addc | 3 => .subc | 4 => .and | 5 => .or | 6 => .xor | 7 => .notA
  | 8 => .shl | 9 => .shr | 10 => .asr | 11 => .passA | 12 => .incA | 13 => .decA | 14 => .passB
  | _ => .zero

/-- The reference numbering of the next-address kinds; 5..15 are reserved (R161). -/
def referenceMacCode (v : BitVec 4) : Option MacKind :=
  match v.toNat with
  | 0 => some .next | 1 => some .jump | 2 => some .jumpIfF | 3 => some .jumpIfNotF | 4 => some .fetch
  | _ => none

/-- The opcode bytes the reference encoding decodes (00_scope.md R5, 30_encoding.md R102). -/
def referenceOpcodeValid (b : Byte) : Bool := (opcodeLength b).isSome

/-- The two sources of the ALU's B input; values 2..7 are reserved (R150). -/
inductive BSel where
  | portB | busByte
  deriving DecidableEq, Repr

/-- The meaning of A7..A5 (R150). -/
def bSel (v : BitVec 3) : Option BSel :=
  match v.toNat with
  | 0 => some .portB
  | 1 => some .busByte
  | _ => none

/-- The control word at the current microcode address (R140, R142). -/
def State.controlWord (p : MicroParams) (s : State) : ControlWord := p.layout (p.rom s.micro.mp)

/-- A FETCH word combined with a register write, a bus access or a flag commit (R166). -/
def fetchCombined (w : ControlWord) : Bool := w.rgwe || w.busen || w.chflg

/-- Whether a control word is ill-formed (R166). -/
def illFormed (p : MicroParams) (w : ControlWord) : Bool :=
  (bSel w.bsel).isNone ||
    match p.macCode w.mac with
    | none => true
    | some .fetch => fetchCombined w
    | some _ => false

/-- The carry-in of ADDC and SUBC: CF when a8 = 0, and 1 when a8 = 1; the other functions ignore it (R151). -/
def microCarry (a8 cf : Bool) : Bool := a8 || cf

/-- The byte the read half reads from the bus, 0x00 where the word reads none (R152). -/
def State.microBusByte (s : State) (w : ControlWord) (ra : Byte) : Except Fault Byte :=
  if w.busen && !w.buswr then s.busRead ra else .ok 0#8

/-- `ReadHalf()` (R167). -/
def readHalf (p : MicroParams) (s : State) : Except Fault State := do
  let t := s.sampleInputs
  let w := t.controlWord p
  if illFormed p w then .error (.illegalMicroWord t.micro.mp)
  else
    let ia := p.regSelect .a w.rgaa t.micro.opl
    let ib := p.regSelect .b w.rgab t.micro.opl
    let ra := t.reg ia
    let rb := t.reg ib
    let d ← t.microBusByte w ra
    let b := if bSel w.bsel = some .busByte then d else rb
    let r := alu (p.aluCode w.alu) ra b (microCarry w.a8 t.flags.cf)
    return { t with
      micro := { t.micro with ia := ia, ib := ib, ra := ra, rb := rb, d := d, f := r.f, c := r.c, phase := .commit } }

/-- The flag slice, ZF ‖ CF or IEF ‖ NF by MAC_COND (R162). -/
def Flags.slice (fl : Flags) (cond : Bool) : BitVec 2 :=
  if cond then flagBit fl.ief ++ flagBit fl.nf else flagBit fl.zf ++ flagBit fl.cf

/-- The 9-bit address of a micro-state and a flag slice, `hi ‖ lo` (R140). -/
def microAddress (hi : BitVec 7) (lo : BitVec 2) : BitVec 9 := hi ++ lo

/-- `NextAddr(w)` for the kinds that fetch no opcode, with the slice taken before the commit (R163). -/
def nextAddress (mp : BitVec 9) (w : ControlWord) (slice : BitVec 2) : MacKind → BitVec 9
  | .next | .fetch => microAddress (mp.extractLsb' 2 7 + 1) slice
  | .jump => microAddress w.na slice
  | .jumpIfF => microAddress (if slice.getLsbD 0 then w.na else mp.extractLsb' 2 7 + 1) slice
  | .jumpIfNotF => microAddress (if slice.getLsbD 0 then mp.extractLsb' 2 7 + 1 else w.na) slice

/-- The M-level state after the microcode address is set. -/
def State.setMp (s : State) (a : BitVec 9) : State := { s with micro := { s.micro with mp := a } }

/-- The M-level state after the opcode latch is set. -/
def State.setOpl (s : State) (op : Byte) : State := { s with micro := { s.micro with opl := op } }

/-- The state when the next tick performs the given half cycle. -/
def State.setPhase (s : State) (ph : Phase) : State := { s with micro := { s.micro with phase := ph } }

/-- `CommitFetch()`: a due interrupt is entered instead of the fetch and mp stays (R164). -/
def commitFetch (p : MicroParams) (slice : BitVec 2) (s : State) : Except Fault State :=
  match s.dueSource with
  | some i => s.enterInterrupt i
  | none => do
    let op ← s.busRead s.pc
    if p.opcodeValid op then
      return ((s.setPc (s.pc + 1)).setOpl op).setMp (microAddress (p.opcEntry op) slice)
    else .error (.illegalOpcode s.pc)

/-- Whether a bus write of the commit half counts as a push (R153). -/
def microWriteKind (ia : Reg) : WriteKind := if ia = Config.spReg then .stack else .data

/-- The bus write of the commit half (R153). -/
def commitBus (w : ControlWord) (s : State) : Except Fault State :=
  if w.busen && w.buswr then s.busWrite s.micro.ra s.micro.f (microWriteKind s.micro.ia) else .ok s

/-- The register write of the commit half: IB when MALUS = 01, IA otherwise; the ALU's F, or the bus byte D (R149). -/
def commitRegister (w : ControlWord) (s : State) : State :=
  if w.rgwe then
    s.setReg (if w.malus = 1#2 then s.micro.ib else s.micro.ia) (if w.rgws then s.micro.d else s.micro.f)
  else s

/-- The flag commit: by MALUS, CF, ZF and NF from the ALU, or IEF set, or IEF cleared (R158). -/
def commitMicroFlags (w : ControlWord) (s : State) : State :=
  if w.chflg then
    match w.malus.toNat with
    | 2 => s.setIef true
    | 3 => s.setIef false
    | _ => s.commitFlags ⟨s.micro.f, s.micro.c⟩
  else s

/-- The core stops when the word says HALT (R165). -/
def commitHalt (halt : Bool) (s : State) : State := if halt then s.setRun .stopped else s

/-- `CommitHalf()` (R168). A word with HALT stops the core after the rest of its commit half (R165; 92_eei_decisions.md D46;
60_exceptions.md R327), a FETCH word as well, whether it enters an interrupt or fetches: R165 makes no exception, though the
pseudocode of R168 returns from a FETCH word before its halt line (log entry 8; DEDUCED, unsafe). A reserved next-address code
was refused in the read half (R166), so its arm here is met in no run from reset; it raises the same error (log entry 9;
DESIGN CHOICE, safe). -/
def commitHalf (p : MicroParams) (s : State) : Except Fault State :=
  let w := s.controlWord p
  let slice := s.flags.slice w.cond
  match p.macCode w.mac with
  | none => .error (.illegalMicroWord s.micro.mp)
  | some .fetch => do
    let t ← commitFetch p slice s
    return (commitHalt w.halt t).setPhase .read
  | some k => do
    let t ← commitBus w s
    let u := commitMicroFlags w (commitRegister w t)
    return (commitHalt w.halt (u.setMp (nextAddress s.micro.mp w slice k))).setPhase .read

/-- `tick_half_cycle()`: in `Running` the half cycle of the phase, whose effects are discarded where it raises; otherwise
nothing (R167, R168, R169; 60_exceptions.md R302, log entry 10). -/
def tickHalfCycle (p : MicroParams) (s : State) : State :=
  match s.run with
  | .running =>
    match s.micro.phase with
    | .read => s.orRaise (readHalf p s)
    | .commit => s.orRaise (commitHalf p s)
  | _ => s

/-- `tick_full_cycle()`: a read half, then a commit half (R169; 70_reset_and_hazards.md R361): two half cycles from phase
READ. Called in phase COMMIT, after an odd number of half cycles, it is the pending commit half and the next word's read half,
and leaves phase COMMIT; R169 does not speak of that case (log entry 16; DESIGN CHOICE, unsafe). -/
def tickFullCycle (p : MicroParams) (s : State) : State := tickHalfCycle p (tickHalfCycle p s)

/-- `run(n)`: up to n full cycles, stopping early when the run state leaves `Running` (R169); in phase COMMIT
each is as `tickFullCycle` says (log entry 16). -/
def runCycles (p : MicroParams) : Nat → State → State
  | 0, s => s
  | n + 1, s => if s.run = .running then runCycles p n (tickFullCycle p s) else s

end Sys2Proof.Machine
end

