-- ==== Sys2Proof/Machine/HostActions.lean ====
section
/-! DEFINITION. What the host may do between steps.
spec: 70_reset_and_hazards.md R340 to R346. -/

namespace Sys2Proof.Machine

/-- Boot: RAM takes the image and everything else its reset value; the inputs are the host's (R340). -/
def hostBoot (cfg : BootConfig) (inputs : Inputs) : State := State.afterReset cfg cfg.image inputs

/-- The host's reset kinds (R341). -/
inductive ResetKind where
  /-- RAM is unchanged. -/
  | keep
  /-- RAM takes the image again. -/
  | reload
  deriving DecidableEq, Repr

/-- A reset of the given kind, accepted in every run state; it changes neither what boot recorded nor the inputs
(R341). -/
def hostReset (kind : ResetKind) (s : State) : State :=
  match kind with
  | .keep => State.afterReset s.boot s.ram s.inputs
  | .reload => State.afterReset s.boot s.boot.image s.inputs

/-- The host installs new inputs; no other state changes (R345). -/
def hostSetInputs (inputs : Inputs) (s : State) : State := { s with inputs := inputs }

/-- `continue`: `Stopped` becomes `Running`; in the other run states nothing happens (R343). -/
def hostContinue (s : State) : State :=
  match s.run with
  | .stopped => s.setRun .running
  | _ => s

/-- What the host may observe (R345): copies, which change nothing. The flags are given as the byte of 10_state.md R28,
the analog outputs also as the voltages of 20_memory.md R71. -/
structure Observation where
  regs : RegBlock
  flags : Byte
  mp : BitVec 9
  opl : Byte
  ram : Memory
  out : PortBytes
  ao1 : Byte
  ao2 : Byte
  volts1 : Rat
  volts2 : Rat
  uioVal : BitVec 3
  uioDir : BitVec 3
  level : BitVec 3
  misr : Byte
  run : RunState
  deriving DecidableEq, Repr

/-- `observe` (R345). -/
def State.observe (s : State) : Observation where
  regs := s.regs
  flags := s.flags.toByte
  mp := s.micro.mp
  opl := s.micro.opl
  ram := s.ram
  out := s.out
  ao1 := s.ao1
  ao2 := s.ao2
  volts1 := analogVolts s.ao1
  volts2 := analogVolts s.ao2
  uioVal := s.uioVal
  uioDir := s.uioDir
  level := s.level
  misr := s.misr
  run := s.run

/-- The actions the host may take between steps, after boot (R345). -/
inductive HostAction where
  | setInputs (inputs : Inputs)
  | step
  | tickHalf
  | tickFull
  | runCycles (n : Nat)
  | reset (kind : ResetKind)
  | resume
  | observe
  deriving DecidableEq, Repr

/-- The state an outcome leaves a session with, where the outcome is a next state. -/
def afterStep (s : State) : Host.Outcome State Fault Refusal → State
  | .next t => t
  | .fault _ => s
  | .refused _ => s

/-- The effect of one host action (R345). -/
def State.act (p : MicroParams) (s : State) : HostAction → State
  | .setInputs i => hostSetInputs i s
  | .step => afterStep s (step s)
  | .tickHalf => tickHalfCycle p s
  | .tickFull => tickFullCycle p s
  | .runCycles n => Sys2Proof.Machine.runCycles p n s
  | .reset k => hostReset k s
  | .resume => hostContinue s
  | .observe => s

/-- A session: the host's actions in order. -/
def State.session (p : MicroParams) (s : State) : List HostAction → State
  | [] => s
  | a :: as => State.session p (s.act p a) as

end Sys2Proof.Machine
end

