-- ==== Sys2Proof/Safety.lean ====
section
/-! DEFINITION. The terms in which claims about the machine are stated: when an access is allowed, what an instruction
may write, what a state holds behind a bus address, and the invariant of a run.
spec: 10_state.md R23, R26 (who writes registers and flags); 20_memory.md R51, R59, R66 (accesses);
60_exceptions.md R303 (run states). -/

namespace Sys2Proof.Machine

/-- A bus read of `a` raises no error (20_memory.md R59). -/
def State.Readable (s : State) (a : Byte) : Prop := ¬ (s.boot.strictIo = true ∧ region a = .nothing)

/-- A data write of `a` is not refused (20_memory.md R66). -/
def State.Writable (s : State) (a : Byte) : Prop := s.boot.writeCheck a .data = none

/-- The next push is not refused (20_memory.md R66, R67). -/
def State.PushAllowed (s : State) : Prop := s.boot.writeCheck (s.sp - 1) .stack = none

/-- What the state holds behind a bus address, which a write of that address may change: the RAM byte, the output latch,
UIOCR as the byte that sets it, MISR, or the port's OUT byte; nothing behind 0xF3 and the addresses with no register
(20_memory.md R51, R61). -/
def State.cell (s : State) (a : Byte) : Byte :=
  match region a with
  | .ram => s.ram.read a.toNat
  | .f0 => s.ao1
  | .f1 => s.ao2
  | .uio => 0#1 ++ s.uioDir ++ 0#1 ++ s.uioVal
  | .misr => s.misr
  | .port p => s.out.get p
  | .status => 0#8
  | .nothing => 0#8

/-- The flags after an ALU or bit instruction whose result is `f` and whose carry is `c` (40_datapath.md R144,
43_alu.md R230): ZF says that the result is 0, NF is bit 7 of it, IEF stays. -/
def State.setResultFlags (s : State) (f : Byte) (c : Bool) : State :=
  { s with flags := ⟨c, decide (f = 0#8), decide (128 ≤ f.toNat), s.flags.ief⟩ }

/-- The registers, other than the PC, that an instruction may write: its register destination, and the SP for `LDSP`,
`CALL`, `RET` and `RETI` (10_state.md R23). -/
def writtenRegs : Instr → List Reg
  | .nop | .stop | .ei | .di | .jr _ | .jzs _ | .jzc _ | .jcs _ | .jcc _ | .jns _ | .jnc _ | .bitsM _ _
  | .bitcM _ _ | .bittR _ _ | .bittM _ _ | .incM _ | .decM _ | .clrM _ | .notM _ | .shlM _ | .shrM _ | .asrM _
  | .tstR _ | .tstM _ | .movMR _ _ | .movMM _ _ | .movMI _ _ | .addMR _ _ | .addMM _ _ | .addMI _ _
  | .adcMR _ _ | .adcMM _ _ | .adcMI _ _ | .subMR _ _ | .subMM _ _ | .subMI _ _ | .sbcMR _ _ | .sbcMM _ _
  | .sbcMI _ _ | .andMR _ _ | .andMM _ _ | .andMI _ _ | .orMR _ _ | .orMM _ _ | .orMI _ _ | .xorMR _ _
  | .xorMM _ _ | .xorMI _ _ | .cmpRR _ _ | .cmpRI _ _ | .cmpRM _ _ | .cmpMR _ _ | .cmpMM _ _ | .cmpMI _ _
  | .st _ _ => []
  | .ret | .reti | .call _ | .ldsp _ => [.r4]
  | .movRR d _ | .movRI d _ | .movRM d _ | .addRR d _ | .addRI d _ | .addRM d _ | .adcRR d _ | .adcRI d _
  | .adcRM d _ | .subRR d _ | .subRI d _ | .subRM d _ | .sbcRR d _ | .sbcRI d _ | .sbcRM d _ | .andRR d _
  | .andRI d _ | .andRM d _ | .orRR d _ | .orRI d _ | .orRM d _ | .xorRR d _ | .xorRI d _ | .xorRM d _
  | .ld d _ => [d]
  | .bitsR r _ | .bitcR r _ | .incR r | .decR r | .clrR r | .notR r | .shlR r | .shrR r | .asrR r => [r]

/-- The bus address an instruction stores to from the state `s`: its memory destination, or the slot a `CALL` pushes to;
none for a form that stores nothing (30_encoding.md R111, R120; 20_memory.md R67). -/
def storeAddr (s : State) : Instr → Option Byte
  | .nop | .stop | .ei | .di | .ret | .reti | .jr _ | .jzs _ | .jzc _ | .jcs _ | .jcc _ | .jns _ | .jnc _
  | .ldsp _ | .bitsR _ _ | .bitcR _ _ | .bittR _ _ | .bittM _ _ | .incR _ | .decR _ | .clrR _ | .notR _
  | .shlR _ | .shrR _ | .asrR _ | .tstR _ | .tstM _ | .movRR _ _ | .movRI _ _ | .movRM _ _ | .addRR _ _
  | .addRI _ _ | .addRM _ _ | .adcRR _ _ | .adcRI _ _ | .adcRM _ _ | .subRR _ _ | .subRI _ _ | .subRM _ _
  | .sbcRR _ _ | .sbcRI _ _ | .sbcRM _ _ | .andRR _ _ | .andRI _ _ | .andRM _ _ | .orRR _ _ | .orRI _ _
  | .orRM _ _ | .xorRR _ _ | .xorRI _ _ | .xorRM _ _ | .cmpRR _ _ | .cmpRI _ _ | .cmpRM _ _ | .cmpMR _ _
  | .cmpMM _ _ | .cmpMI _ _ | .ld _ _ => none
  | .bitsM a _ | .bitcM a _ | .incM a | .decM a | .clrM a | .notM a | .shlM a | .shrM a | .asrM a | .movMR a _
  | .movMM a _ | .movMI a _ | .addMR a _ | .addMM a _ | .addMI a _ | .adcMR a _ | .adcMM a _ | .adcMI a _
  | .subMR a _ | .subMM a _ | .subMI a _ | .sbcMR a _ | .sbcMM a _ | .sbcMI a _ | .andMR a _ | .andMM a _
  | .andMI a _ | .orMR a _ | .orMM a _ | .orMI a _ | .xorMR a _ | .xorMM a _ | .xorMI a _ | .st a _ => some a
  | .call _ => some (s.sp - 1)

/-- The instructions that write CF, ZF and NF: those of 43_alu.md and 44_bit_ops.md (10_state.md R26). -/
def writesFlags : Instr → Bool
  | .bitsR _ _ | .bitsM _ _ | .bitcR _ _ | .bitcM _ _ | .bittR _ _ | .bittM _ _ | .incR _ | .incM _ | .decR _
  | .decM _ | .clrR _ | .clrM _ | .notR _ | .notM _ | .shlR _ | .shlM _ | .shrR _ | .shrM _ | .asrR _ | .asrM _
  | .tstR _ | .tstM _ | .addRR _ _ | .addRI _ _ | .addRM _ _ | .addMR _ _ | .addMM _ _ | .addMI _ _
  | .adcRR _ _ | .adcRI _ _ | .adcRM _ _ | .adcMR _ _ | .adcMM _ _ | .adcMI _ _ | .subRR _ _ | .subRI _ _
  | .subRM _ _ | .subMR _ _ | .subMM _ _ | .subMI _ _ | .sbcRR _ _ | .sbcRI _ _ | .sbcRM _ _ | .sbcMR _ _
  | .sbcMM _ _ | .sbcMI _ _ | .andRR _ _ | .andRI _ _ | .andRM _ _ | .andMR _ _ | .andMM _ _ | .andMI _ _
  | .orRR _ _ | .orRI _ _ | .orRM _ _ | .orMR _ _ | .orMM _ _ | .orMI _ _ | .xorRR _ _ | .xorRI _ _
  | .xorRM _ _ | .xorMR _ _ | .xorMM _ _ | .xorMI _ _ | .cmpRR _ _ | .cmpRI _ _ | .cmpRM _ _ | .cmpMR _ _
  | .cmpMM _ _ | .cmpMI _ _ => true
  | .nop | .stop | .ei | .di | .ret | .reti | .jr _ | .jzs _ | .jzc _ | .jcs _ | .jcc _ | .jns _ | .jnc _
  | .call _ | .ldsp _ | .movRR _ _ | .movRI _ _ | .movRM _ _ | .movMR _ _ | .movMM _ _ | .movMI _ _ | .ld _ _
  | .st _ _ => false

/-- The invariant of a run: RAM and the image have their canonical form (20_memory.md R52, 30_encoding.md R130). -/
def State.Inv (s : State) : Prop := s.ram.wf = true ∧ s.boot.image.wf = true

/-- The errors of an instruction whose operand reads are `reads`, in order, and whose one data write, if it has one, is of
`write`: the first read that is undefined in strict mode raises `UndefinedInput`, and with all reads allowed a refused write
raises `OutOfBoundsWrite`; either leaves everything else as it was (30_encoding.md R120, R121; 60_exceptions.md R305). -/
def State.RaisesFor (s : State) (i : Instr) (reads : List Byte) (write : Option Byte) : Prop :=
  (∀ before a after, reads = before ++ a :: after → (∀ b ∈ before, s.Readable b) → ¬ s.Readable a →
    exec i s = .next (s.raise (.undefinedInput a))) ∧
  ((∀ b ∈ reads, s.Readable b) → ∀ a, write = some a → ¬ s.Writable a →
    exec i s = .next (s.raise (.outOfBoundsWrite a)))

/-- What a two-operand instruction that writes its result back does in its six modes, when its accesses are allowed and when
one is not: `val` and `carry` give the result and the carry from the destination, the source and CF. The operands are read
with the PC at the next instruction (43_alu.md R230; 30_encoding.md R111, R118). -/
def TwoOpResult (rr : Reg → Reg → Instr) (ri rm : Reg → Byte → Instr) (mr : Byte → Reg → Instr)
    (mm mi : Byte → Byte → Instr) (val : Byte → Byte → Bool → Byte) (carry : Byte → Byte → Bool → Bool) : Prop :=
  ∀ (s : State) (d r : Reg) (a b n : Byte),
    let q := s.setPc (s.pc + 2)
    let t := s.setPc (s.pc + 3)
    let cf := s.flags.cf
    let toReg (u : State) (y : Byte) : State :=
      (u.setReg d (val (u.reg d) y cf)).setResultFlags (val (u.reg d) y cf) (carry (u.reg d) y cf)
    let toMem (y : Byte) : State :=
      (t.store a (val (t.busValue a) y cf)).setResultFlags (val (t.busValue a) y cf) (carry (t.busValue a) y cf)
    exec (rr d r) s = .next (toReg q (q.reg r)) ∧
    exec (ri d n) s = .next (toReg t n) ∧
    (s.Readable b → exec (rm d b) s = .next (toReg t (t.busValue b))) ∧
    (s.Readable a → s.Writable a → exec (mr a r) s = .next (toMem (t.reg r))) ∧
    (s.Readable a → s.Readable b → s.Writable a → exec (mm a b) s = .next (toMem (t.busValue b))) ∧
    (s.Readable a → s.Writable a → exec (mi a n) s = .next (toMem n)) ∧
    s.RaisesFor (rm d b) [b] none ∧ s.RaisesFor (mr a r) [a] (some a) ∧ s.RaisesFor (mm a b) [a, b] (some a) ∧
    s.RaisesFor (mi a n) [a] (some a)

/-- What a one-operand instruction that reads its operand and writes its result back does in its two forms, when its accesses
are allowed and when one is not (43_alu.md R239). -/
def OneOpResult (reg : Reg → Instr) (mem : Byte → Instr) (val : Byte → Byte) (carry : Byte → Bool) : Prop :=
  ∀ (s : State) (r : Reg) (a : Byte),
    let q := s.setPc (s.pc + 1)
    let t := s.setPc (s.pc + 2)
    exec (reg r) s = .next ((q.setReg r (val (q.reg r))).setResultFlags (val (q.reg r)) (carry (q.reg r))) ∧
    (s.Readable a → s.Writable a →
      exec (mem a) s =
        .next ((t.store a (val (t.busValue a))).setResultFlags (val (t.busValue a)) (carry (t.busValue a)))) ∧
    s.RaisesFor (mem a) [a] (some a)

/-- What a bit instruction that writes its result back does in its two forms, when its accesses are allowed and when one is
not (44_bit_ops.md R250). -/
def BitResult (reg : Reg → Byte → Instr) (mem : Byte → Byte → Instr) (val : Byte → Byte → Byte) : Prop :=
  ∀ (s : State) (r : Reg) (a m : Byte),
    let q := s.setPc (s.pc + 2)
    let t := s.setPc (s.pc + 3)
    exec (reg r m) s = .next ((q.setReg r (val (q.reg r) m)).setResultFlags (val (q.reg r) m) false) ∧
    (s.Readable a → s.Writable a →
      exec (mem a m) s =
        .next ((t.store a (val (t.busValue a) m)).setResultFlags (val (t.busValue a) m) false)) ∧
    s.RaisesFor (mem a m) [a] (some a)

/-- The addresses an instruction reads its operands from, in the order of the reads: destination, then source; the slot a
`RET` or `RETI` pops (30_encoding.md R111, R120; 20_memory.md R68). -/
def operandReads (s : State) : Instr → List Byte
  | .nop | .stop | .ei | .di | .jr _ | .jzs _ | .jzc _ | .jcs _ | .jcc _ | .jns _ | .jnc _ | .call _ | .ldsp _
  | .bitsR _ _ | .bitcR _ _ | .bittR _ _ | .incR _ | .decR _ | .clrR _ | .clrM _ | .notR _ | .shlR _ | .shrR _
  | .asrR _ | .tstR _ | .movRR _ _ | .movRI _ _ | .movMR _ _ | .movMI _ _ | .addRR _ _ | .addRI _ _
  | .adcRR _ _ | .adcRI _ _ | .subRR _ _ | .subRI _ _ | .sbcRR _ _ | .sbcRI _ _ | .andRR _ _ | .andRI _ _
  | .orRR _ _ | .orRI _ _ | .xorRR _ _ | .xorRI _ _ | .cmpRR _ _ | .cmpRI _ _ | .st _ _ => []
  | .ret | .reti => [s.sp]
  | .bitsM a _ | .bitcM a _ | .bittM a _ | .incM a | .decM a | .notM a | .shlM a | .shrM a | .asrM a | .tstM a
  | .movRM _ a | .addRM _ a | .addMR a _ | .addMI a _ | .adcRM _ a | .adcMR a _ | .adcMI a _ | .subRM _ a
  | .subMR a _ | .subMI a _ | .sbcRM _ a | .sbcMR a _ | .sbcMI a _ | .andRM _ a | .andMR a _ | .andMI a _
  | .orRM _ a | .orMR a _ | .orMI a _ | .xorRM _ a | .xorMR a _ | .xorMI a _ | .cmpRM _ a | .cmpMR a _
  | .cmpMI a _ | .ld _ a => [a]
  | .movMM _ b => [b]
  | .addMM a b | .adcMM a b | .subMM a b | .sbcMM a b | .andMM a b | .orMM a b | .xorMM a b | .cmpMM a b => [a, b]

/-- The bytes of the six forms of a two-operand instruction whose first byte 0 is `b0` (30_encoding.md R102, R103). -/
def TwoOpBytes (rr : Reg → Reg → Instr) (ri rm : Reg → Byte → Instr) (mr : Byte → Reg → Instr)
    (mm mi : Byte → Byte → Instr) (b0 : Byte) : Prop :=
  ∀ (d r : Reg) (a b n : Byte),
    encode (rr d r) = [b0, regPairByte d r] ∧ encode (ri d n) = [b0 + 1, regByte d, n] ∧
    encode (rm d a) = [b0 + 2, regByte d, a] ∧ encode (mr a r) = [b0 + 3, a, regByte r] ∧
    encode (mm a b) = [b0 + 4, a, b] ∧ encode (mi a n) = [b0 + 5, a, n]

/-- The bytes of the two forms of a one-operand instruction whose first byte 0 is `b0` (30_encoding.md R102, R103). -/
def OneOpBytes (reg : Reg → Instr) (mem : Byte → Instr) (b0 : Byte) : Prop :=
  ∀ (r : Reg) (a : Byte), encode (reg r) = [b0 + regByte r] ∧ encode (mem a) = [b0 + 4, a]

/-- The bytes of the two forms of a bit instruction whose first byte 0 is `b0` (30_encoding.md R102, R103). -/
def BitBytes (reg : Reg → Byte → Instr) (mem : Byte → Byte → Instr) (b0 : Byte) : Prop :=
  ∀ (r : Reg) (a m : Byte), encode (reg r m) = [b0 + regByte r, m] ∧ encode (mem a m) = [b0 + 0x10, a, m]

/-- Byte 0 values that are illegal: the list of 30_encoding.md R112. -/
def illegalOpcodes : List Byte :=
  [0x06, 0x07] ++ [0x11, 0x12, 0x13, 0x14, 0x15, 0x16, 0x17, 0x18, 0x19, 0x1A, 0x1B, 0x1C, 0x1D, 0x1E, 0x1F] ++
  [0x2C, 0x2D, 0x2E, 0x2F, 0x31, 0x32, 0x33, 0x35, 0x36, 0x37, 0x39, 0x3A, 0x3B, 0x3C, 0x3D, 0x3E, 0x3F] ++
  [0x45, 0x46, 0x47, 0x4D, 0x4E, 0x4F, 0x55, 0x56, 0x57, 0x5D, 0x5E, 0x5F] ++
  [0x65, 0x66, 0x67, 0x6D, 0x6E, 0x6F, 0x75, 0x76, 0x77, 0x7D, 0x7E, 0x7F] ++
  [0x86, 0x87, 0x8E, 0x8F, 0x96, 0x97, 0x9E, 0x9F, 0xA6, 0xA7, 0xAE, 0xAF, 0xB6, 0xB7, 0xBE, 0xBF, 0xC6, 0xC7] ++
  (List.range 56).map fun k => BitVec.ofNat 8 (0xC8 + k)

/-- Several bytes pushed, the first one first (20_memory.md R67). -/
def State.pushAll (s : State) : List Byte → Except Fault State
  | [] => .ok s
  | v :: vs => do
    let t ← s.push v
    t.pushAll vs

end Sys2Proof.Machine
end

