-- ==== Sys2Proof/Certificates/Slice0/Obligations.lean ====
section
/-! DEFINITION. The statements for the provers, in the order of OBLIGATIONS.json.

In a result statement `q`, `t` or `u` is the state with the PC moved past the instruction, the state its operands are read
in (30_encoding.md R118). A conclusion `exec i s = .next …` fixes every field of the next state, so it is the frame as well:
what the equation does not name keeps its value. A statement about every register `r` or `d` covers R4..R7 too, which no
bytes name (30_encoding.md R106): for these alone it is the model's choice (log entry 15). -/

section

open Sys2Proof Sys2Proof.Machine

/-! ### Encoding -/

/-- Words written out from the tables of 30_encoding.md R102 and R103, one or more of every format, decode to the instruction
they stand for. In a number the first byte is the low one. -/
def Obligations.WrittenOutWordsDecode : Prop :=
  decodeTableWord 8 0x00 = some .nop ∧ decodeTableWord 8 0x05 = some .reti ∧
  decodeTableWord 16 0x400A = some (.jzc 0x40#8) ∧ decodeTableWord 16 0xF010 = some (.ldsp 0xF0#8) ∧
  decodeTableWord 16 0x0F25 = some (.bitcR .r1 0x0F#8) ∧ decodeTableWord 24 0x01FC38 = some (.bittM 0xFC#8 0x01#8) ∧
  decodeTableWord 8 0x4A = some (.decR .r2) ∧ decodeTableWord 16 0x8074 = some (.asrM 0x80#8) ∧
  decodeTableWord 16 0x0680 = some (.movRR .r1 .r2) ∧ decodeTableWord 24 0x0301A1 = some (.sbcRI .r1 0x03#8) ∧
  decodeTableWord 24 0xFD008A = some (.addRM .r0 0xFD#8) ∧ decodeTableWord 24 0x03FF83 = some (.movMR 0xFF#8 .r3) ∧
  decodeTableWord 24 0x21FF84 = some (.movMM 0xFF#8 0x21#8) ∧ decodeTableWord 24 0x7F80C5 = some (.cmpMI 0x80#8 0x7F#8)

/-- 30_encoding.md R115 ("Decoding is the inverse of rules R102 to R111") and R132: the bytes of every well-formed
instruction, with anything after them, decode to that instruction, the pseudo-instructions `LD` and `ST` to the `MOV`
they stand for, and the decoder leaves the bytes that follow. -/
def Obligations.DecodeEncodeAgree : Prop :=
  ∀ (i : Instr) (rest : List Byte), i.WellFormed → decode (encode i ++ rest) = .ok (i.core, rest)

/-- 30_encoding.md R114, R115: a byte 0 that has a length decodes, with any operand bytes, to exactly one instruction; it is
well formed, it is no pseudo-instruction, it has that length, and its own byte 0 is the one it was read from. -/
def Obligations.EveryLegalByteDecodes : Prop :=
  ∀ (b0 b1 b2 : Byte) (n : Nat), opcodeLength b0 = some n →
    ∃ i, decodeInstr b0 b1 b2 = some i ∧ i.WellFormed ∧ i.core = i ∧ i.length = n ∧ (encode i).head? = some b0

/-- 30_encoding.md R112: the illegal values of byte 0 are the 132 of the list, whatever bytes follow; each of them, met by
the fetch, raises `IllegalOpcode` with its address; and no operand byte makes an instruction illegal. -/
def Obligations.IllegalOpcodesRaise : Prop :=
  illegalOpcodes.length = 132 ∧ illegalOpcodes.Nodup ∧
  (∀ b0 b1 b2 : Byte, decodeInstr b0 b1 b2 = none ↔ b0 ∈ illegalOpcodes) ∧
  (∀ b0 : Byte, opcodeLength b0 = none ↔ b0 ∈ illegalOpcodes) ∧
  ∀ s : State, s.run = .running → s.sampleInputs.dueSource = none → s.Readable s.pc →
    s.busValue s.pc ∈ illegalOpcodes → step s = .next (s.sampleInputs.raise (.illegalOpcode s.pc))

/-- 30_encoding.md R106: a 2-bit field names R0..R3 by its number, and R3 is the PC; no decoded instruction names R4..R7;
and the bits marked x of bytes 1 and 2 of formats T-0 to T-3 do not matter. -/
def Obligations.RegisterFields : Prop :=
  (Reg.ofField 0 = .r0 ∧ Reg.ofField 1 = .r1 ∧ Reg.ofField 2 = .r2 ∧ Reg.ofField 3 = .r3 ∧ Config.pcReg = .r3) ∧
  (∀ b0 b1 b2 i, decodeInstr b0 b1 b2 = some i → ∀ r ∈ i.namedRegs, r ≠ .r4 ∧ r ≠ .r5 ∧ r ≠ .r6 ∧ r ≠ .r7) ∧
  ∀ b0 b1 b2 : Byte, 0x80 ≤ b0.toNat →
    (b0.toNat % 8 = 0 → decodeInstr b0 b1 b2 = decodeInstr b0 (b1 &&& 0x0F#8) b2) ∧
    (b0.toNat % 8 = 1 ∨ b0.toNat % 8 = 2 → decodeInstr b0 b1 b2 = decodeInstr b0 (b1 &&& 0x03#8) b2) ∧
    (b0.toNat % 8 = 3 → decodeInstr b0 b1 b2 = decodeInstr b0 b1 (b2 &&& 0x03#8))

/-! ### The instruction cycle -/

/-- 30_encoding.md R118: in `Running`, with no interrupt due, when the bytes from the PC on decode to an instruction and can be
read, the step is `exec` of that instruction at the state after the input samples. (`exec` moves the PC itself.) -/
def Obligations.StepRunsDecodedInstruction : Prop :=
  ∀ (s : State) (i : Instr) (rest : List Byte), s.run = .running → s.sampleInputs.dueSource = none →
    decode [s.busValue s.pc, s.busValue (s.pc + 1), s.busValue (s.pc + 2)] = .ok (i, rest) →
    (∀ k, k < i.length → s.Readable (s.pc + BitVec.ofNat 8 k)) →
    i.WellFormed ∧ step s = exec i s.sampleInputs

/-- 30_encoding.md R118, R119: one step in `Running`, case by case in the order of the rule. With `t` the state after the
samples: an interrupt due makes the entry the whole step; else the opcode is fetched over the bus, checked, and the operand
bytes are fetched one by one before the instruction runs. -/
def Obligations.InstructionCycle : Prop :=
  ∀ s : State, s.run = .running →
    let t := s.sampleInputs
    (∀ i, t.dueSource = some i → step s = .next (t.orRaise (t.enterInterrupt i))) ∧
    (t.dueSource = none →
      (¬ s.Readable s.pc → step s = .next (t.raise (.undefinedInput s.pc))) ∧
      (s.Readable s.pc →
        (opcodeLength (s.busValue s.pc) = none → step s = .next (t.raise (.illegalOpcode s.pc))) ∧
        ∀ n, opcodeLength (s.busValue s.pc) = some n →
          (∀ k, 1 ≤ k → k < n → (∀ j, 1 ≤ j → j < k → s.Readable (s.pc + BitVec.ofNat 8 j)) →
            ¬ s.Readable (s.pc + BitVec.ofNat 8 k) →
            step s = .next (t.raise (.undefinedInput (s.pc + BitVec.ofNat 8 k)))) ∧
          ((∀ k, 1 ≤ k → k < n → s.Readable (s.pc + BitVec.ofNat 8 k)) →
            ∃ i, decodeInstr (s.busValue s.pc) (s.busValue (s.pc + 1)) (s.busValue (s.pc + 2)) = some i ∧
              i.length = n ∧ step s = exec i t)))

/-- 00_scope.md R9: the run state is one of three, and outside `Running` a step or a tick of either level does nothing. -/
def Obligations.NoStepOutsideRunning : Prop :=
  (∀ r : RunState, r = .running ∨ r = .stopped ∨ ∃ e, r = .errorHalted e) ∧
  ∀ (p : MicroParams) (n : Nat) (s : State), s.run ≠ .running →
    step s = .next s ∧ tickHalfCycle p s = s ∧ tickFullCycle p s = s ∧ runCycles p n s = s

/-- Every step answers a next state, and so does every instruction: the runtime errors of 60_exceptions.md R301 are next states
(R302; that `ErrorHalted` is no `Host.Outcome.fault` is the model's choice, log entry 4), and no instruction is left without a
meaning. -/
def Obligations.EveryStepAnswers : Prop :=
  (∀ s : State, ∃ t, step s = .next t) ∧ ∀ (i : Instr) (s : State), ∃ t, exec i s = .next t

/-! ### Invariants -/

/-- Every I-level step keeps RAM and the image in their canonical form, every listed address below 0xF0 (20_memory.md R52). -/
def Obligations.StepKeepsMemoryForm : Prop :=
  ∀ s t : State, s.Inv → step s = .next t → t.Inv

/-- The machine right after reset meets the invariant. That `State.reset` is the boot of an image in which nobody filled a
byte is the model's choice (log entry 1), and this statement rests on it. -/
def Obligations.ResetMeetsMemoryForm : Prop := State.reset.Inv

/-- Every host action of 70_reset_and_hazards.md R345 keeps the invariant: a step, a half cycle, a full cycle or any number of
cycles of the M-level, for every value of the parameters no source gives, a reset, new inputs; and so every session. -/
def Obligations.SessionsKeepMemoryForm : Prop :=
  ∀ (p : MicroParams) (as : List HostAction) (s : State), s.Inv → (s.session p as).Inv

/-- 10_state.md R33, R37: no step of either level changes the host's inputs or what boot recorded (that this stands in State is
the model's choice, log entry 2). -/
def Obligations.ConfigurationAndInputsStay : Prop :=
  (∀ s t : State, step s = .next t → t.boot = s.boot ∧ t.inputs = s.inputs) ∧
  ∀ (p : MicroParams) (n : Nat) (s : State),
    (tickHalfCycle p s).boot = s.boot ∧ (tickHalfCycle p s).inputs = s.inputs ∧
    (runCycles p n s).boot = s.boot ∧ (runCycles p n s).inputs = s.inputs

/-- 10_state.md R23: no I-level step reads or writes R5, R6 or R7: with another value there, the step does the same and leaves that
value; and an instruction other than `LDSP`, `CALL`, `RET` and `RETI` neither reads nor writes R4, while `LDSP` writes it
without reading it. -/
def Obligations.HiddenRegisters : Prop :=
  (∀ (s t : State) (r : Reg) (v : Byte), r = .r5 ∨ r = .r6 ∨ r = .r7 → step s = .next t →
    t.reg r = s.reg r ∧ step (s.setReg r v) = .next (t.setReg r v)) ∧
  (∀ (i : Instr) (s t : State) (v : Byte), i.WellFormed → i ≠ .ret → i ≠ .reti → (∀ a, i ≠ .call a) →
    (∀ n, i ≠ .ldsp n) → exec i s = .next t →
    t.reg .r4 = s.reg .r4 ∧ exec i (s.setReg .r4 v) = .next (t.setReg .r4 v)) ∧
  ∀ (s : State) (n v : Byte), exec (.ldsp n) (s.setReg .r4 v) = exec (.ldsp n) s

/-- 10_state.md R26: who writes the flags. CF, ZF and NF are changed by no instruction outside 43_alu.md and 44_bit_ops.md; IEF
is set by `EI` and by `RETI`, cleared by `DI` and by interrupt entry, and changed by nothing else. -/
def Obligations.FlagWriters : Prop :=
  (∀ (i : Instr) (s t : State), exec i s = .next t → writesFlags i = false →
    t.flags.cf = s.flags.cf ∧ t.flags.zf = s.flags.zf ∧ t.flags.nf = s.flags.nf) ∧
  (∀ (i : Instr) (s t : State), exec i s = .next t → i ≠ .ei → i ≠ .di → i ≠ .reti → t.flags.ief = s.flags.ief) ∧
  (∀ s t : State, exec .ei s = .next t → t.flags.ief = true) ∧
  (∀ s t : State, exec .di s = .next t → t.flags.ief = false) ∧
  (∀ s t : State, exec .reti s = .next t → s.Readable s.sp → t.flags.ief = true) ∧
  ∀ (s t : State) (i : Source), s.enterInterrupt i = .ok t →
    t.flags = { s.flags with ief := false }

/-- The frame of every instruction, well formed or not: what it leaves when it answers a next state. The destination registers
are `writtenRegs`, the address stored to is `storeAddr` (`none` for a form that stores nothing), what a store can change is
`cell`, and the one other address that shows a stored byte is 0xF3, which shows MISR (20_memory.md R65). That the M-level state
stays is the model's inference (log entry 5), and that the boot parameters stand in State at all is its choice (log entry 2). -/
def Obligations.InstructionFrame : Prop :=
  ∀ (i : Instr) (s t : State), exec i s = .next t →
    (∀ r, r ≠ .r3 → r ∉ writtenRegs i → t.reg r = s.reg r) ∧
    (storeAddr s i = none → t.ram = s.ram ∧ t.misr = s.misr ∧ t.uioVal = s.uioVal ∧ t.uioDir = s.uioDir ∧
      t.ao1 = s.ao1 ∧ t.ao2 = s.ao2 ∧ t.out = s.out) ∧
    (storeAddr s i = none → ∀ b, t.busRead b = s.busRead b) ∧
    (∀ a, storeAddr s i = some a → ∀ b, b ≠ a →
      t.cell b = s.cell b ∧ (¬ (a = 0xF9#8 ∧ b = 0xF3#8) → t.busRead b = s.busRead b)) ∧
    t.inputs = s.inputs ∧ t.req = s.req ∧ t.prev = s.prev ∧ t.micro = s.micro ∧ t.boot = s.boot ∧
    (t.run = s.run ∨ (i = .stop ∧ t.run = .stopped) ∨ ∃ e, t.run = .errorHalted e)

/-! ### Runtime errors -/

/-- 30_encoding.md R121: a step that ends in an error leaves every register, flag, memory byte and latch at its value from the
start of the step; only the run state and the interrupt unit's samples are new. -/
def Obligations.PreciseErrors : Prop :=
  ∀ (s t : State) (e : Fault), s.run = .running → step s = .next t → t.run = .errorHalted e →
    t = { s with run := .errorHalted e, req := s.sampleInputs.req, prev := s.sampleInputs.prev } ∧ t.pc = s.pc

/-- 60_exceptions.md R305 (4), (5) and 30_encoding.md R120: the error of an instruction is that of the first access that has
one, the operand reads in order and then the one write; without one, the instruction completes. This covers every form. -/
def Obligations.FirstErrorIsReported : Prop :=
  ∀ (i : Instr) (s : State),
    (∀ before a after, operandReads s i = before ++ a :: after → (∀ b ∈ before, s.Readable b) → ¬ s.Readable a →
      exec i s = .next (s.raise (.undefinedInput a))) ∧
    ((∀ b ∈ operandReads s i, s.Readable b) →
      (∀ a, storeAddr s i = some a → (∀ c, i ≠ .call c) → ¬ s.Writable a →
        exec i s = .next (s.raise (.outOfBoundsWrite a))) ∧
      (∀ c, i = .call c → ¬ s.PushAllowed → exec i s = .next (s.raise (.stackOverflow (s.sp - 1)))) ∧
      (((∃ c, i = .call c) → s.PushAllowed) →
        (∀ a, storeAddr s i = some a → (∀ c, i ≠ .call c) → s.Writable a) →
        ∃ t, exec i s = .next t ∧ t.run = (if i = .stop then .stopped else s.run)))

/-! ### Control and flow -/

/-- 41_control_flow.md R200 to R206: the jumps, with their encodings. -/
def Obligations.JumpResults : Prop :=
  ∀ (s : State) (t : Byte),
    (exec (.jr t) s = .next (s.setPc t) ∧ encode (.jr t) = [0x08, t]) ∧
    (exec (.jzs t) s = .next (s.setPc (if s.flags.zf = true then t else s.pc + 2)) ∧ encode (.jzs t) = [0x09, t]) ∧
    (exec (.jzc t) s = .next (s.setPc (if s.flags.zf = false then t else s.pc + 2)) ∧ encode (.jzc t) = [0x0A, t]) ∧
    (exec (.jcs t) s = .next (s.setPc (if s.flags.cf = true then t else s.pc + 2)) ∧ encode (.jcs t) = [0x0B, t]) ∧
    (exec (.jcc t) s = .next (s.setPc (if s.flags.cf = false then t else s.pc + 2)) ∧ encode (.jcc t) = [0x0C, t]) ∧
    (exec (.jns t) s = .next (s.setPc (if s.flags.nf = true then t else s.pc + 2)) ∧ encode (.jns t) = [0x0D, t]) ∧
    (exec (.jnc t) s = .next (s.setPc (if s.flags.nf = false then t else s.pc + 2)) ∧ encode (.jnc t) = [0x0E, t])

/-- 41_control_flow.md R207: `CALL` pushes the next instruction's address and jumps; a push outside the stack region raises
`StackOverflow` and leaves SP and PC. -/
def Obligations.CallResult : Prop :=
  ∀ (s : State) (t : Byte), encode (.call t) = [0x0F, t] ∧
    (s.PushAllowed →
      exec (.call t) s = .next (((s.store (s.sp - 1) (s.pc + 2)).setSp (s.sp - 1)).setPc t)) ∧
    (s.boot.stackSize ≠ .s0 → s.boot.inStack (s.sp - 1) = false →
      exec (.call t) s = .next (s.raise (.stackOverflow (s.sp - 1)))) ∧
    (s.PushAllowed ↔ s.boot.stackSize = .s0 ∨ s.boot.inStack (s.sp - 1) = true)

/-- 41_control_flow.md R208: `RET` pops the PC with no underflow check; only a strict-mode read of an address with no register
stops it. -/
def Obligations.RetResult : Prop :=
  ∀ s : State, encode .ret = [0x04] ∧
    (s.Readable s.sp → exec .ret s = .next ((s.setSp (s.sp + 1)).setPc (s.busValue s.sp))) ∧
    (¬ s.Readable s.sp → exec .ret s = .next (s.raise (.undefinedInput s.sp)))

/-- 41_control_flow.md R209: `RETI` pops the PC and sets IEF, and nothing else. -/
def Obligations.RetiResult : Prop :=
  ∀ s : State, encode .reti = [0x05] ∧
    (s.Readable s.sp →
      exec .reti s = .next (((s.setSp (s.sp + 1)).setPc (s.busValue s.sp)).setIef true)) ∧
    (¬ s.Readable s.sp → exec .reti s = .next (s.raise (.undefinedInput s.sp)))

/-- 41_control_flow.md R210 to R213: `STOP`, `EI`, `DI` and `NOP`. -/
def Obligations.StopEiDiNopResults : Prop :=
  ∀ s : State,
    (exec .stop s = .next ((s.setPc (s.pc + 1)).setRun .stopped) ∧ encode .stop = [0x01]) ∧
    (exec .ei s = .next ((s.setPc (s.pc + 1)).setIef true) ∧ encode .ei = [0x02]) ∧
    (exec .di s = .next ((s.setPc (s.pc + 1)).setIef false) ∧ encode .di = [0x03]) ∧
    (exec .nop s = .next (s.setPc (s.pc + 1)) ∧ encode .nop = [0x00])

/-! ### Data move -/

/-- 42_data_move.md R220: `MOV` in its six modes. -/
def Obligations.MovResult : Prop :=
  TwoOpBytes .movRR .movRI .movRM .movMR .movMM .movMI 0x80#8 ∧
  ∀ (s : State) (d r : Reg) (a b n : Byte),
    let q := s.setPc (s.pc + 2)
    let t := s.setPc (s.pc + 3)
    exec (.movRR d r) s = .next (q.setReg d (q.reg r)) ∧
    exec (.movRI d n) s = .next (t.setReg d n) ∧
    (s.Readable b → exec (.movRM d b) s = .next (t.setReg d (s.busValue b))) ∧
    (s.Writable a → exec (.movMR a r) s = .next (t.store a (t.reg r))) ∧
    (s.Readable b → s.Writable a → exec (.movMM a b) s = .next (t.store a (s.busValue b))) ∧
    (s.Writable a → exec (.movMI a n) s = .next (t.store a n)) ∧
    s.RaisesFor (.movRM d b) [b] none ∧ s.RaisesFor (.movMR a r) [] (some a) ∧
    s.RaisesFor (.movMM a b) [b] (some a) ∧ s.RaisesFor (.movMI a n) [] (some a)

/-- 42_data_move.md R222, R223: `LD` and `ST`, with the bytes of the `MOV` each stands for (30_encoding.md R132), and the error
each can meet. -/
def Obligations.LdStResults : Prop :=
  ∀ (s : State) (r : Reg) (a : Byte),
    let t := s.setPc (s.pc + 3)
    encode (.ld r a) = [0x82, regByte r, a] ∧ encode (.st a r) = [0x83, a, regByte r] ∧
    (s.Readable a → exec (.ld r a) s = .next (t.setReg r (s.busValue a))) ∧
    (¬ s.Readable a → exec (.ld r a) s = .next (s.raise (.undefinedInput a))) ∧
    (s.Writable a → exec (.st a r) s = .next (t.store a (t.reg r))) ∧
    (¬ s.Writable a → exec (.st a r) s = .next (s.raise (.outOfBoundsWrite a)))

/-- 42_data_move.md R221: `LDSP` puts its byte in SP, unchecked. -/
def Obligations.LdspResult : Prop :=
  ∀ (s : State) (n : Byte), exec (.ldsp n) s = .next ((s.setPc (s.pc + 2)).setSp n) ∧ encode (.ldsp n) = [0x10, n]

/-! ### Arithmetic and logic -/

/-- 43_alu.md R231: `ADD` in its six modes: the sum modulo 256, CF its ninth bit. -/
def Obligations.AddResult : Prop :=
  TwoOpBytes .addRR .addRI .addRM .addMR .addMM .addMI 0x88#8 ∧
  TwoOpResult .addRR .addRI .addRM .addMR .addMM .addMI (fun x y _ => x + y)
    (fun x y _ => decide (256 ≤ x.toNat + y.toNat))

/-- 43_alu.md R232: `ADC` in its six modes: the sum with CF. -/
def Obligations.AdcResult : Prop :=
  TwoOpBytes .adcRR .adcRI .adcRM .adcMR .adcMM .adcMI 0x90#8 ∧
  TwoOpResult .adcRR .adcRI .adcRM .adcMR .adcMM .adcMI (fun x y c => x + y + BitVec.ofNat 8 c.toNat)
    (fun x y c => decide (256 ≤ x.toNat + y.toNat + c.toNat))

/-- 43_alu.md R233: `SUB` in its six modes: the difference modulo 256, CF the unsigned borrow. -/
def Obligations.SubResult : Prop :=
  TwoOpBytes .subRR .subRI .subRM .subMR .subMM .subMI 0x98#8 ∧
  TwoOpResult .subRR .subRI .subRM .subMR .subMM .subMI (fun x y _ => x - y)
    (fun x y _ => decide (x.toNat < y.toNat))

/-- 43_alu.md R234: `SBC` in its six modes: the difference less CF, CF the borrow. -/
def Obligations.SbcResult : Prop :=
  TwoOpBytes .sbcRR .sbcRI .sbcRM .sbcMR .sbcMM .sbcMI 0xA0#8 ∧
  TwoOpResult .sbcRR .sbcRI .sbcRM .sbcMR .sbcMM .sbcMI (fun x y c => x - y - BitVec.ofNat 8 c.toNat)
    (fun x y c => decide (x.toNat < y.toNat + c.toNat))

/-- 43_alu.md R235, R236, R237: `AND`, `OR` and `XOR` in their six modes, CF = 0. -/
def Obligations.LogicResults : Prop :=
  (TwoOpBytes .andRR .andRI .andRM .andMR .andMM .andMI 0xA8#8 ∧
    TwoOpResult .andRR .andRI .andRM .andMR .andMM .andMI (fun x y _ => x &&& y) (fun _ _ _ => false)) ∧
  (TwoOpBytes .orRR .orRI .orRM .orMR .orMM .orMI 0xB0#8 ∧
    TwoOpResult .orRR .orRI .orRM .orMR .orMM .orMI (fun x y _ => x ||| y) (fun _ _ _ => false)) ∧
  (TwoOpBytes .xorRR .xorRI .xorRM .xorMR .xorMM .xorMI 0xB8#8 ∧
    TwoOpResult .xorRR .xorRI .xorRM .xorMR .xorMM .xorMI (fun x y _ => x ^^^ y) (fun _ _ _ => false))

/-- 43_alu.md R238: `CMP` in its six modes: the flags of the difference; the destination stays. -/
def Obligations.CmpResult : Prop :=
  TwoOpBytes .cmpRR .cmpRI .cmpRM .cmpMR .cmpMM .cmpMI 0xC0#8 ∧
  ∀ (s : State) (d r : Reg) (a b n : Byte),
    let q := s.setPc (s.pc + 2)
    let t := s.setPc (s.pc + 3)
    let cmp (u : State) (x y : Byte) : Host.Outcome State Fault Refusal :=
      .next (u.setResultFlags (x - y) (decide (x.toNat < y.toNat)))
    exec (.cmpRR d r) s = cmp q (q.reg d) (q.reg r) ∧
    exec (.cmpRI d n) s = cmp t (t.reg d) n ∧
    (s.Readable b → exec (.cmpRM d b) s = cmp t (t.reg d) (s.busValue b)) ∧
    (s.Readable a → exec (.cmpMR a r) s = cmp t (s.busValue a) (t.reg r)) ∧
    (s.Readable a → s.Readable b → exec (.cmpMM a b) s = cmp t (s.busValue a) (s.busValue b)) ∧
    (s.Readable a → exec (.cmpMI a n) s = cmp t (s.busValue a) n) ∧
    s.RaisesFor (.cmpRM d b) [b] none ∧ s.RaisesFor (.cmpMR a r) [a] none ∧ s.RaisesFor (.cmpMM a b) [a, b] none ∧
    s.RaisesFor (.cmpMI a n) [a] none

/-- 43_alu.md R241, R242: `INC` and `DEC`, CF the carry out of 0xFF and the borrow from 0x00. -/
def Obligations.IncDecResults : Prop :=
  (OneOpBytes .incR .incM 0x40#8 ∧ OneOpResult .incR .incM (fun x => x + 1) (fun x => decide (x = 0xFF#8))) ∧
  (OneOpBytes .decR .decM 0x48#8 ∧ OneOpResult .decR .decM (fun x => x - 1) (fun x => decide (x = 0x00#8)))

/-- 43_alu.md R243, R244: `CLR`, which does not read its operand, and `NOT`. -/
def Obligations.ClrNotResults : Prop :=
  OneOpBytes .clrR .clrM 0x50#8 ∧
  (∀ (s : State) (r : Reg) (a : Byte),
    exec (.clrR r) s = .next (((s.setPc (s.pc + 1)).setReg r 0).setResultFlags 0 false) ∧
    (s.Writable a → exec (.clrM a) s = .next (((s.setPc (s.pc + 2)).store a 0).setResultFlags 0 false)) ∧
    (¬ s.Writable a → exec (.clrM a) s = .next (s.raise (.outOfBoundsWrite a)))) ∧
  OneOpBytes .notR .notM 0x58#8 ∧ OneOpResult .notR .notM (fun x => 0xFF#8 - x) (fun _ => false)

/-- 43_alu.md R245, R246, R247: the shifts by one place, as arithmetic on the byte's number: CF is the bit shifted out. -/
def Obligations.ShiftResults : Prop :=
  (OneOpBytes .shlR .shlM 0x60#8 ∧
    OneOpResult .shlR .shlM (fun x => BitVec.ofNat 8 (2 * x.toNat)) (fun x => decide (128 ≤ x.toNat))) ∧
  (OneOpBytes .shrR .shrM 0x68#8 ∧
    OneOpResult .shrR .shrM (fun x => BitVec.ofNat 8 (x.toNat / 2)) (fun x => decide (x.toNat % 2 = 1))) ∧
  (OneOpBytes .asrR .asrM 0x70#8 ∧
    OneOpResult .asrR .asrM (fun x => BitVec.ofInt 8 (x.toInt / 2)) (fun x => decide (x.toNat % 2 = 1)))

/-- 43_alu.md R240: `TST` sets the flags from its operand, with CF = 0, and writes nothing back. -/
def Obligations.TstResult : Prop :=
  OneOpBytes .tstR .tstM 0x78#8 ∧
  ∀ (s : State) (r : Reg) (a : Byte),
    let q := s.setPc (s.pc + 1)
    let t := s.setPc (s.pc + 2)
    exec (.tstR r) s = .next (q.setResultFlags (q.reg r) false) ∧
    (s.Readable a → exec (.tstM a) s = .next (t.setResultFlags (s.busValue a) false)) ∧
    (¬ s.Readable a → exec (.tstM a) s = .next (s.raise (.undefinedInput a)))

/-! ### Bit operations -/

/-- 44_bit_ops.md R251, R252: `BITS` sets and `BITC` clears the bits of the mask, CF = 0. -/
def Obligations.BitsBitcResults : Prop :=
  (BitBytes .bitsR .bitsM 0x20#8 ∧ BitResult .bitsR .bitsM (fun x m => x ||| m)) ∧
  (BitBytes .bitcR .bitcM 0x24#8 ∧ BitResult .bitcR .bitcM (fun x m => x &&& (0xFF#8 - m)))

/-- 44_bit_ops.md R253: `BITT` sets the flags of the masked bits and writes nothing back. -/
def Obligations.BittResult : Prop :=
  BitBytes .bittR .bittM 0x28#8 ∧
  ∀ (s : State) (r : Reg) (a m : Byte),
    let q := s.setPc (s.pc + 2)
    let t := s.setPc (s.pc + 3)
    exec (.bittR r m) s = .next (q.setResultFlags (q.reg r &&& m) false) ∧
    (s.Readable a → exec (.bittM a m) s = .next (t.setResultFlags (s.busValue a &&& m) false)) ∧
    (¬ s.Readable a → exec (.bittM a m) s = .next (s.raise (.undefinedInput a)))

/-- 40_datapath.md R145: the sixteen ALU functions in the order of the reference numbering, on the numbers the bytes stand
for. -/
def Obligations.AluFunctions : Prop :=
  (List.range 16).map (fun k => referenceAluCode (BitVec.ofNat 4 k)) =
    [.add, .sub, .addc, .subc, .and, .or, .xor, .notA, .shl, .shr, .asr, .passA, .incA, .decA, .passB, .zero] ∧
  ∀ (a b : Byte) (cin : Bool),
    let out (fn : AluFn) (f : Nat) (c : Prop) : Prop := (alu fn a b cin).f.toNat = f ∧ ((alu fn a b cin).c = true ↔ c)
    let x := a.toNat
    let y := b.toNat
    let k := cin.toNat
    out .add ((x + y) % 256) (256 ≤ x + y) ∧ out .sub ((x + 256 - y) % 256) (x < y) ∧
    out .addc ((x + y + k) % 256) (256 ≤ x + y + k) ∧ out .subc ((x + 512 - y - k) % 256) (x < y + k) ∧
    out .and (x &&& y) False ∧ out .or (x ||| y) False ∧ out .xor (x ^^^ y) False ∧ out .notA (255 - x) False ∧
    out .shl (2 * x % 256) (128 ≤ x) ∧ out .shr (x / 2) (x % 2 = 1) ∧
    out .asr (x / 2 + (if 128 ≤ x then 128 else 0)) (x % 2 = 1) ∧ out .passA x False ∧
    out .incA ((x + 1) % 256) (x = 255) ∧ out .decA ((x + 255) % 256) (x = 0) ∧ out .passB y False ∧
    out .zero 0 False

/-! ### Memory, bus and board -/

/-- 20_memory.md R60: what a bus read of each address returns. -/
def Obligations.BusReadTable : Prop :=
  ∀ (s : State) (a : Byte),
    (a.toNat ≤ 0xEF → s.busRead a = .ok (s.ram.read a.toNat)) ∧
    (a = 0xF0#8 → s.busRead a = .ok s.inputs.irg) ∧
    (a = 0xF1#8 → s.busRead a = .ok (adcCode s.inputs.temp)) ∧
    (a = 0xF2#8 → s.busRead a = .ok (0#1 ++ s.uioDir ++ 0#1 ++ s.level)) ∧
    (a = 0xF3#8 → s.busRead a = .ok (s.misr >>> 5)) ∧
    (a = 0xF9#8 → s.busRead a = .ok s.misr) ∧
    (a = 0xFC#8 → s.busRead a = .ok s.inputs.inp.fc) ∧ (a = 0xFD#8 → s.busRead a = .ok s.inputs.inp.fd) ∧
    (a = 0xFE#8 → s.busRead a = .ok s.inputs.inp.fe) ∧ (a = 0xFF#8 → s.busRead a = .ok s.inputs.inp.ff) ∧
    (0xF4 ≤ a.toNat ∧ a.toNat ≤ 0xF8 ∨ a = 0xFA#8 ∨ a = 0xFB#8 →
      s.busRead a = if s.boot.strictIo = true then .error (.undefinedInput a) else .ok 0x00#8)

/-- 20_memory.md R61: what a bus write that is not refused does at each address, and that one that is refused raises what the
check says. -/
def Obligations.BusWriteTable : Prop :=
  ∀ (s : State) (a v : Byte) (k : WriteKind),
    (∀ e, s.boot.writeCheck a k = some e → s.busWrite a v k = .error e) ∧
    (s.boot.writeCheck a k = none →
      (a.toNat ≤ 0xEF → s.busWrite a v k = .ok { s with ram := s.ram.write a.toNat v }) ∧
      (a = 0xF0#8 → s.busWrite a v k = .ok { s with ao1 := v }) ∧
      (a = 0xF1#8 → s.busWrite a v k = .ok { s with ao2 := v }) ∧
      (a = 0xF2#8 → s.busWrite a v k =
        .ok { s with uioVal := v.setWidth 3, uioDir := (v >>> 4).setWidth 3 }) ∧
      (a = 0xF9#8 → s.busWrite a v k = .ok { s with misr := v }) ∧
      (a = 0xFC#8 → s.busWrite a v k = .ok { s with out := { s.out with fc := v } }) ∧
      (a = 0xFD#8 → s.busWrite a v k = .ok { s with out := { s.out with fd := v } }) ∧
      (a = 0xFE#8 → s.busWrite a v k = .ok { s with out := { s.out with fe := v } }) ∧
      (a = 0xFF#8 → s.busWrite a v k = .ok { s with out := { s.out with ff := v } }) ∧
      (0xF3 ≤ a.toNat ∧ a.toNat ≤ 0xF8 ∨ a = 0xFA#8 ∨ a = 0xFB#8 → s.busWrite a v k = .ok s))

/-- 20_memory.md R66, R69: exactly which writes are refused, and with which error. -/
def Obligations.WriteChecks : Prop :=
  ∀ (b : BootConfig) (a : Byte),
    let stackRegion : Prop := 0xF0 - b.stackSize.bytes ≤ a.toNat ∧ a.toNat ≤ 0xEF
    let refused : Prop := a.toNat ≤ 0xEF ∧ (∃ p, b.programBound = some p ∧ p.toNat ≤ a.toNat) ∧
      ¬ (b.stackSize ≠ .s0 ∧ stackRegion)
    (b.stackSize ≠ .s0 ∧ ¬ stackRegion → b.writeCheck a .stack = some (.stackOverflow a)) ∧
    (¬ (b.stackSize ≠ .s0 ∧ ¬ stackRegion) → b.writeCheck a .stack = none) ∧
    (refused → b.writeCheck a .data = some (.outOfBoundsWrite a)) ∧
    (¬ refused → b.writeCheck a .data = none)

/-- 20_memory.md R75, R58, R56: after a write of a RAM address, a read of it gives the byte written and every other address
reads as before; after a write of an output port or an analog latch no read of any address changes; after a write of MISR, a
read of it gives the byte written. -/
def Obligations.ReadAfterWrite : Prop :=
  ∀ (s t : State) (a v : Byte) (k : WriteKind), s.Inv → s.busWrite a v k = .ok t →
    (a.toNat ≤ 0xEF → t.busRead a = .ok v ∧ ∀ b, b ≠ a → t.busRead b = s.busRead b) ∧
    (a = 0xF0#8 ∨ a = 0xF1#8 ∨ 0xFC ≤ a.toNat → ∀ b, t.busRead b = s.busRead b) ∧
    (a = 0xF9#8 → t.busRead a = .ok v ∧ ∀ b, b ≠ 0xF3#8 → b ≠ a → t.busRead b = s.busRead b)

/-- 20_memory.md R64: after a write of v to 0xF2, pin i has the direction v[4 + i] and the value v[i]; its level, which the read
shows, is the value on an output and the host's level on an input. -/
def Obligations.UniversalIoPins : Prop :=
  ∀ (s : State) (v : Byte), ∃ t r, s.busWrite 0xF2#8 v .data = .ok t ∧ t.busRead 0xF2#8 = .ok r ∧
    (∀ i, i < 3 → t.uioVal.getLsbD i = v.getLsbD i ∧ t.uioDir.getLsbD i = v.getLsbD (4 + i)) ∧
    r.getLsbD 3 = false ∧ r.getLsbD 7 = false ∧
    ∀ i, i < 3 → r.getLsbD (4 + i) = v.getLsbD (4 + i) ∧
      r.getLsbD i = if v.getLsbD (4 + i) = true then v.getLsbD i else s.inputs.uioExt.getLsbD i

/-- 20_memory.md R72: the temperature code is `floor(clamp(TEMP, 0.0, 5.0) × 255 / 5.0)`, for every rational voltage (that
TEMP is rational is the model's choice, log entry 3). -/
def Obligations.TemperatureCode : Prop :=
  ∀ v : Rat, ((adcCode v).toNat : Int) = ⌊max 0 (min v 5) * 255 / 5⌋

/-! ### Interrupts -/

/-- 60_exceptions.md R307, R310: a sample compares each source's level with the previous one, latches a rising edge whose
enable bit is set, keeps what is latched, and changes nothing else. -/
def Obligations.InputSamples : Prop :=
  ∀ s : State,
    (s.sourceLevel .key = s.inputs.inp.fc.getLsbD 0 ∧
      s.sourceLevel .uio1 = (!s.uioDir.getLsbD 0 && s.inputs.uioExt.getLsbD 0) ∧
      s.sourceLevel .uio2 = (!s.uioDir.getLsbD 1 && s.inputs.uioExt.getLsbD 1) ∧
      s.sourceLevel .uio3 = (!s.uioDir.getLsbD 2 && s.inputs.uioExt.getLsbD 2)) ∧
    (s.sourceEnabled .key = s.misr.getLsbD 0 ∧ s.sourceEnabled .uio1 = s.misr.getLsbD 1 ∧
      s.sourceEnabled .uio2 = s.misr.getLsbD 2 ∧ s.sourceEnabled .uio3 = s.misr.getLsbD 3) ∧
    (∀ i, (s.sampleInputs.req.get i = true ↔ s.req.get i = true ∨
        (s.prev.get i = false ∧ s.sourceLevel i = true ∧ s.sourceEnabled i = true)) ∧
      s.sampleInputs.prev.get i = s.sourceLevel i) ∧
    s.sampleInputs = { s with req := s.sampleInputs.req, prev := s.sampleInputs.prev }

/-- 60_exceptions.md R311: an interrupt is due exactly when IEF is set and some source has its request latched and its enable
bit set; the source selected is the first such in the order KEY, UIO1, UIO2, UIO3. -/
def Obligations.DueSource : Prop :=
  ∀ s : State,
    let due (i : Source) : Prop := s.req.get i = true ∧ s.sourceEnabled i = true
    (s.dueSource = none ↔ ¬ (s.flags.ief = true ∧ ∃ i, due i)) ∧
    ∀ i, s.dueSource = some i ↔
      s.flags.ief = true ∧ due i ∧ ∀ j : Source, j.index < i.index → ¬ due j

/-- 60_exceptions.md R313, R314, R318, R302: a step at a boundary where an interrupt is due. With the push allowed it pushes the
address of the pre-empted instruction, clears IEF, sets the pending bit 4 + index, clears the request and goes to 0x02, and
changes nothing else; with the push refused nothing of the entry happens. -/
def Obligations.InterruptEntry : Prop :=
  ∀ (s : State) (i : Source), s.run = .running → s.sampleInputs.dueSource = some i →
    let t := s.sampleInputs
    let u := ((t.store (s.sp - 1) s.pc).setSp (s.sp - 1)).setPc 0x02#8
    (s.PushAllowed → step s = .next { u with
      flags := { s.flags with ief := false }
      misr := u.misr ||| BitVec.ofNat 8 (2 ^ (4 + i.index))
      req := t.req.set i false }) ∧
    (¬ s.PushAllowed → step s = .next (t.raise (.stackOverflow (s.sp - 1))))

/-- 60_exceptions.md R313, R316: `RETI` right after an entry whose push went to RAM restores the PC, the SP and every other
register of before the entry and sets IEF. What it does not undo: the pending bit stays set, the source's request stays cleared,
and the stack slot keeps the pushed PC, the one byte of RAM that differs. -/
def Obligations.ReturnRestoresEntry : Prop :=
  ∀ (s t : State) (i : Source), s.Inv → (s.sp - 1).toNat ≤ 0xEF → s.enterInterrupt i = .ok t →
    ∃ u, exec .reti t = .next u ∧ u.pc = s.pc ∧ u.sp = s.sp ∧ u.flags = { s.flags with ief := true } ∧
      u.misr = t.misr ∧ u.misr.getLsbD (4 + i.index) = true ∧ u.req = s.req.set i false ∧
      u.ram = s.ram.write (s.sp - 1).toNat s.pc ∧ u.ram.read (s.sp - 1).toNat = s.pc ∧
      (∀ b, b ≠ (s.sp - 1).toNat → u.ram.read b = s.ram.read b) ∧ ∀ r, r ≠ .r3 → u.reg r = s.reg r

/-- 60_exceptions.md R310, R313: a latched request stays latched through every step but the one that takes its interrupt, which
clears it and no other. -/
def Obligations.RequestsStayLatched : Prop :=
  ∀ (s t : State) (i : Source), step s = .next t → s.req.get i = true →
    t.req.get i = true ∨ (s.run = .running ∧ s.sampleInputs.dueSource = some i ∧ t.pc = 0x02#8)

/-! ### Reset and the host -/

/-- 70_reset_and_hazards.md R341, 10_state.md R38: what either reset leaves, in whatever run state it comes; boot leaves what
a reload of the same image with the same inputs does. -/
def Obligations.ResetValues : Prop :=
  ∀ (s : State) (k : ResetKind),
    let t := hostReset k s
    (∀ r, t.reg r = 0) ∧ t.flags = ⟨false, false, false, false⟩ ∧ t.misr = 0 ∧ t.uioVal = 0 ∧ t.uioDir = 0 ∧
    t.ao1 = 0 ∧ t.ao2 = 0 ∧ (∀ p, t.out.get p = 0) ∧ (∀ i, t.req.get i = false ∧ t.prev.get i = false) ∧
    t.micro = ⟨0, 0, .read, .r0, .r0, 0, 0, 0, 0, false⟩ ∧ t.run = .running ∧ t.inputs = s.inputs ∧ t.boot = s.boot ∧
    t.ram = (match k with | .keep => s.ram | .reload => s.boot.image) ∧
    hostBoot s.boot s.inputs = hostReset .reload s

/-- 60_exceptions.md R303, R304 and 70_reset_and_hazards.md R343: the run state's transitions under every host action. `Stopped`
is left by `continue` and by a reset, `ErrorHalted` by a reset alone, with its reason kept until then; `continue` changes
nothing but the run state, and nothing at all outside `Stopped`. -/
def Obligations.RunStateTransitions : Prop :=
  (∀ s : State, (s.run = .stopped → hostContinue s = { s with run := .running }) ∧
    (s.run ≠ .stopped → hostContinue s = s)) ∧
  ∀ (p : MicroParams) (s : State) (x : HostAction),
    (∀ k, x = .reset k → (s.act p x).run = .running) ∧
    ((∀ k, x ≠ .reset k) →
      (∀ e, s.run = .errorHalted e → (s.act p x).run = .errorHalted e) ∧
      (s.run = .stopped → (s.act p x).run = if x = .resume then .running else .stopped))

/-- 70_reset_and_hazards.md R342: at the first sample after a reset, whatever the inputs, no request is latched and no interrupt
is due, and a level that is 1 is remembered, so that it makes no edge until it falls. -/
def Obligations.NoInterruptAfterReset : Prop :=
  ∀ (s : State) (k : ResetKind) (inputs : Inputs),
    let t := hostSetInputs inputs (hostReset k s)
    t.sampleInputs.dueSource = none ∧
    ∀ i, t.sampleInputs.req.get i = false ∧ t.sampleInputs.prev.get i = t.sourceLevel i ∧
      ∀ m, State.enabledEdge { t.sampleInputs with misr := m } i = false

/-- 70_reset_and_hazards.md R344: with SP at 0xF0 and `STACKSIZE` = k, k pushes fit and the next raises `StackOverflow`. -/
def Obligations.StackDepth : Prop :=
  ∀ (s : State) (vs : List Byte), s.sp = 0xF0#8 → s.boot.stackSize ≠ .s0 →
    (vs.length ≤ s.boot.stackSize.bytes →
      ∃ t, s.pushAll vs = .ok t ∧ t.sp = 0xF0#8 - BitVec.ofNat 8 vs.length) ∧
    (vs.length = s.boot.stackSize.bytes + 1 →
      s.pushAll vs = .error (.stackOverflow (0xF0#8 - BitVec.ofNat 8 vs.length)))

/-- 30_encoding.md R130: whatever the source text, an image the assembler gives is in canonical form, every byte below 0xF0, and
its step machine boots into a state that meets the invariant. -/
def Obligations.AssembledImages : Prop :=
  ∀ (strictIo : Bool) (text : List Char) (cfg : BootConfig) (inputs : Inputs), assemble strictIo text = .ok cfg →
    cfg.image.wf = true ∧ cfg.strictIo = strictIo ∧ (hostBoot cfg inputs).Inv ∧ (hostBoot cfg inputs).ram = cfg.image

/-! ### The M-level, for every value of the parameters no source gives -/

/-- 40_datapath.md R166: an ill-formed control word raises `IllegalMicroWord` in its read half and has no effect (its samples
are discarded with the rest of the half cycle, 60_exceptions.md R302: the model's reading, log entry 10). -/
def Obligations.IllFormedWordsRaise : Prop :=
  ∀ (p : MicroParams) (s : State), s.run = .running → s.micro.phase = .read →
    let w := p.layout (p.rom s.micro.mp)
    (p.macCode w.mac = none ∨ 2 ≤ w.bsel.toNat ∨
      (p.macCode w.mac = some .fetch ∧ (w.rgwe = true ∨ w.busen = true ∨ w.chflg = true))) →
    tickHalfCycle p s = s.raise (.illegalMicroWord s.micro.mp)

/-- 40_datapath.md R167, R148, R150, R151, R152: the read half of a well-formed word: the ports, the bus byte (0x00 where the
word reads none) and the ALU's outputs go to the latches, and the next tick is the commit half; a bus read that is undefined
in strict mode raises, and the samples of that half cycle are discarded with the rest of it (the model's reading, log entry
10). -/
def Obligations.ReadHalf : Prop :=
  ∀ (p : MicroParams) (s : State), s.run = .running → s.micro.phase = .read →
    let w := p.layout (p.rom s.micro.mp)
    let ia := p.regSelect .a w.rgaa s.micro.opl
    let ib := p.regSelect .b w.rgab s.micro.opl
    let reads := w.busen = true ∧ w.buswr = false
    let d := if reads then s.busValue (s.reg ia) else 0x00#8
    let r := alu (p.aluCode w.alu) (s.reg ia) (if w.bsel = 0 then s.reg ib else d)
      (if w.a8 = true then true else s.flags.cf)
    w.bsel.toNat < 2 → p.macCode w.mac ≠ none →
    (p.macCode w.mac = some .fetch → w.rgwe = false ∧ w.busen = false ∧ w.chflg = false) →
    ((reads → s.Readable (s.reg ia)) →
      tickHalfCycle p s = { s.sampleInputs with
        micro := { s.micro with
          ia := ia, ib := ib, ra := s.reg ia, rb := s.reg ib, d := d, f := r.f, c := r.c, phase := .commit } }) ∧
    (reads → ¬ s.Readable (s.reg ia) → tickHalfCycle p s = s.raise (.undefinedInput (s.reg ia)))

/-- 40_datapath.md R149, R153, R158, R162, R163, R165, R168: the commit half of a word that is not a FETCH: the bus write, the
register write, the flag update, the next address from the flags of before, and the halt, in this order; a refused write
discards the half cycle. -/
def Obligations.CommitHalf : Prop :=
  ∀ (p : MicroParams) (s : State) (k : MacKind), s.run = .running → s.micro.phase = .commit →
    let w := p.layout (p.rom s.micro.mp)
    let m := s.micro
    let kind : WriteKind := if m.ia = .r4 then .stack else .data
    let writes := w.busen = true ∧ w.buswr = true
    let t := if writes then s.store m.ra m.f else s
    let u := if w.rgwe = true then t.setReg (if w.malus = 1 then m.ib else m.ia) (if w.rgws = true then m.d else m.f) else t
    let fl := s.flags
    let flags : Flags := if w.chflg = false then fl
      else if w.malus = 2 then { fl with ief := true }
      else if w.malus = 3 then { fl with ief := false }
      else ⟨m.c, decide (m.f = 0), decide (128 ≤ m.f.toNat), fl.ief⟩
    let slice : BitVec 2 := if w.cond = false then BitVec.ofBool fl.zf ++ BitVec.ofBool fl.cf
      else BitVec.ofBool fl.ief ++ BitVec.ofBool fl.nf
    let low := if w.cond = false then fl.cf else fl.nf
    let next : BitVec 7 := m.mp.extractLsb' 2 7 + 1
    let hi : BitVec 7 := match k with
      | .jump => w.na
      | .jumpIfF => if low = true then w.na else next
      | .jumpIfNotF => if low = true then next else w.na
      | .next | .fetch => next
    p.macCode w.mac = some k → k ≠ .fetch →
    ((writes → s.boot.writeCheck m.ra kind = none) →
      tickHalfCycle p s = { u with
        flags := flags, micro := { m with mp := hi ++ slice, phase := .read },
        run := if w.halt = true then .stopped else .running }) ∧
    ∀ e, writes → s.boot.writeCheck m.ra kind = some e → tickHalfCycle p s = s.raise e

/-- 40_datapath.md R164, R165: the commit half of a FETCH word, with HALT or without: a due interrupt is entered and the same
word runs again; else the opcode at the PC goes to the latch and picks the next address; an opcode the ROM does not decode raises
`IllegalOpcode`. With HALT the core is `Stopped` after either (92_eei_decisions.md D46; that the return in R168's pseudocode is
no exception to R165 is the model's inference, log entry 8); an error leaves `ErrorHalted` all the same. -/
def Obligations.FetchCommit : Prop :=
  ∀ (p : MicroParams) (s : State), s.run = .running → s.micro.phase = .commit →
    let w := p.layout (p.rom s.micro.mp)
    let m := s.micro
    let fl := s.flags
    let slice : BitVec 2 := if w.cond = false then BitVec.ofBool fl.zf ++ BitVec.ofBool fl.cf
      else BitVec.ofBool fl.ief ++ BitVec.ofBool fl.nf
    let op := s.busValue s.pc
    let run : RunState := if w.halt = true then .stopped else .running
    p.macCode w.mac = some .fetch →
    (∀ i t, s.dueSource = some i → s.enterInterrupt i = .ok t →
      tickHalfCycle p s = { t with micro := { m with phase := .read }, run := run }) ∧
    (∀ i e, s.dueSource = some i → s.enterInterrupt i = .error e → tickHalfCycle p s = s.raise e) ∧
    (s.dueSource = none → s.Readable s.pc →
      (p.opcodeValid op = true → tickHalfCycle p s = { s.setPc (s.pc + 1) with
        micro := { m with opl := op, mp := p.opcEntry op ++ slice, phase := .read }, run := run }) ∧
      (p.opcodeValid op = false → tickHalfCycle p s = s.raise (.illegalOpcode s.pc))) ∧
    (s.dueSource = none → ¬ s.Readable s.pc → tickHalfCycle p s = s.raise (.undefinedInput s.pc))

end
end

