-- ==== Sys2Proof/Laws/State.lean ====
section
/-! SUPPORT. One lemma for each field of the state and each named update, true by rfl, and the laws of the register
block, so that no proof unfolds a record update. -/

namespace Sys2Proof.Machine

/-! ### The register block -/

@[simp] theorem RegBlock.get_set_same (b : RegBlock) (r : Reg) (v : Byte) : (b.set r v).get r = v := by
  cases r <;> rfl

theorem RegBlock.get_set_ne (b : RegBlock) {r q : Reg} (v : Byte) (h : q ≠ r) : (b.set r v).get q = b.get q := by
  cases r <;> cases q <;> first | rfl | exact absurd rfl h

@[simp] theorem RegBlock.set_get_self (b : RegBlock) (r : Reg) : b.set r (b.get r) = b := by cases r <;> rfl

@[simp] theorem RegBlock.set_set_same (b : RegBlock) (r : Reg) (v w : Byte) : (b.set r v).set r w = b.set r w := by
  cases r <;> rfl

theorem RegBlock.set_set_comm (b : RegBlock) {r q : Reg} (v w : Byte) (h : q ≠ r) :
    (b.set r v).set q w = (b.set q w).set r v := by
  cases r <;> cases q <;> first | rfl | exact absurd rfl h

@[simp] theorem PortBytes.get_set_same (b : PortBytes) (p : IoPort) (v : Byte) : (b.set p v).get p = v := by
  cases p <;> rfl

theorem PortBytes.get_set_ne (b : PortBytes) {p q : IoPort} (v : Byte) (h : q ≠ p) : (b.set p v).get q = b.get q := by
  cases p <;> cases q <;> first | rfl | exact absurd rfl h

@[simp] theorem SourceBits.get_set_same (b : SourceBits) (i : Source) (v : Bool) : (b.set i v).get i = v := by
  cases i <;> rfl

theorem SourceBits.get_set_ne (b : SourceBits) {i j : Source} (v : Bool) (h : j ≠ i) : (b.set i v).get j = b.get j := by
  cases i <;> cases j <;> first | rfl | exact absurd rfl h

@[simp] theorem SourceBits.get_tabulate (g : Source → Bool) (i : Source) : (SourceBits.tabulate g).get i = g i := by
  cases i <;> rfl

/-! ### Fields of the updated state -/

@[simp] theorem State.setReg_regs (s : State) (r : Reg) (v : Byte) : (s.setReg r v).regs = s.regs.set r v := rfl
@[simp] theorem State.setReg_flags (s : State) (r : Reg) (v : Byte) : (s.setReg r v).flags = s.flags := rfl
@[simp] theorem State.setReg_ram (s : State) (r : Reg) (v : Byte) : (s.setReg r v).ram = s.ram := rfl
@[simp] theorem State.setReg_misr (s : State) (r : Reg) (v : Byte) : (s.setReg r v).misr = s.misr := rfl
@[simp] theorem State.setReg_uioVal (s : State) (r : Reg) (v : Byte) : (s.setReg r v).uioVal = s.uioVal := rfl
@[simp] theorem State.setReg_uioDir (s : State) (r : Reg) (v : Byte) : (s.setReg r v).uioDir = s.uioDir := rfl
@[simp] theorem State.setReg_ao1 (s : State) (r : Reg) (v : Byte) : (s.setReg r v).ao1 = s.ao1 := rfl
@[simp] theorem State.setReg_ao2 (s : State) (r : Reg) (v : Byte) : (s.setReg r v).ao2 = s.ao2 := rfl
@[simp] theorem State.setReg_out (s : State) (r : Reg) (v : Byte) : (s.setReg r v).out = s.out := rfl
@[simp] theorem State.setReg_req (s : State) (r : Reg) (v : Byte) : (s.setReg r v).req = s.req := rfl
@[simp] theorem State.setReg_prev (s : State) (r : Reg) (v : Byte) : (s.setReg r v).prev = s.prev := rfl
@[simp] theorem State.setReg_inputs (s : State) (r : Reg) (v : Byte) : (s.setReg r v).inputs = s.inputs := rfl
@[simp] theorem State.setReg_micro (s : State) (r : Reg) (v : Byte) : (s.setReg r v).micro = s.micro := rfl
@[simp] theorem State.setReg_run (s : State) (r : Reg) (v : Byte) : (s.setReg r v).run = s.run := rfl
@[simp] theorem State.setReg_boot (s : State) (r : Reg) (v : Byte) : (s.setReg r v).boot = s.boot := rfl

@[simp] theorem State.setPc_regs (s : State) (v : Byte) : (s.setPc v).regs = s.regs.set .r3 v := rfl
@[simp] theorem State.setPc_flags (s : State) (v : Byte) : (s.setPc v).flags = s.flags := rfl
@[simp] theorem State.setPc_ram (s : State) (v : Byte) : (s.setPc v).ram = s.ram := rfl
@[simp] theorem State.setPc_misr (s : State) (v : Byte) : (s.setPc v).misr = s.misr := rfl
@[simp] theorem State.setPc_uioVal (s : State) (v : Byte) : (s.setPc v).uioVal = s.uioVal := rfl
@[simp] theorem State.setPc_uioDir (s : State) (v : Byte) : (s.setPc v).uioDir = s.uioDir := rfl
@[simp] theorem State.setPc_ao1 (s : State) (v : Byte) : (s.setPc v).ao1 = s.ao1 := rfl
@[simp] theorem State.setPc_ao2 (s : State) (v : Byte) : (s.setPc v).ao2 = s.ao2 := rfl
@[simp] theorem State.setPc_out (s : State) (v : Byte) : (s.setPc v).out = s.out := rfl
@[simp] theorem State.setPc_req (s : State) (v : Byte) : (s.setPc v).req = s.req := rfl
@[simp] theorem State.setPc_prev (s : State) (v : Byte) : (s.setPc v).prev = s.prev := rfl
@[simp] theorem State.setPc_inputs (s : State) (v : Byte) : (s.setPc v).inputs = s.inputs := rfl
@[simp] theorem State.setPc_micro (s : State) (v : Byte) : (s.setPc v).micro = s.micro := rfl
@[simp] theorem State.setPc_run (s : State) (v : Byte) : (s.setPc v).run = s.run := rfl
@[simp] theorem State.setPc_boot (s : State) (v : Byte) : (s.setPc v).boot = s.boot := rfl

@[simp] theorem State.setSp_regs (s : State) (v : Byte) : (s.setSp v).regs = s.regs.set .r4 v := rfl
@[simp] theorem State.setSp_flags (s : State) (v : Byte) : (s.setSp v).flags = s.flags := rfl
@[simp] theorem State.setSp_ram (s : State) (v : Byte) : (s.setSp v).ram = s.ram := rfl
@[simp] theorem State.setSp_misr (s : State) (v : Byte) : (s.setSp v).misr = s.misr := rfl
@[simp] theorem State.setSp_uioVal (s : State) (v : Byte) : (s.setSp v).uioVal = s.uioVal := rfl
@[simp] theorem State.setSp_uioDir (s : State) (v : Byte) : (s.setSp v).uioDir = s.uioDir := rfl
@[simp] theorem State.setSp_ao1 (s : State) (v : Byte) : (s.setSp v).ao1 = s.ao1 := rfl
@[simp] theorem State.setSp_ao2 (s : State) (v : Byte) : (s.setSp v).ao2 = s.ao2 := rfl
@[simp] theorem State.setSp_out (s : State) (v : Byte) : (s.setSp v).out = s.out := rfl
@[simp] theorem State.setSp_req (s : State) (v : Byte) : (s.setSp v).req = s.req := rfl
@[simp] theorem State.setSp_prev (s : State) (v : Byte) : (s.setSp v).prev = s.prev := rfl
@[simp] theorem State.setSp_inputs (s : State) (v : Byte) : (s.setSp v).inputs = s.inputs := rfl
@[simp] theorem State.setSp_micro (s : State) (v : Byte) : (s.setSp v).micro = s.micro := rfl
@[simp] theorem State.setSp_run (s : State) (v : Byte) : (s.setSp v).run = s.run := rfl
@[simp] theorem State.setSp_boot (s : State) (v : Byte) : (s.setSp v).boot = s.boot := rfl

@[simp] theorem State.commitFlags_regs (s : State) (o : AluOut) : (s.commitFlags o).regs = s.regs := rfl
@[simp] theorem State.commitFlags_flags (s : State) (o : AluOut) : (s.commitFlags o).flags = s.flags.commit o := rfl
@[simp] theorem State.commitFlags_ram (s : State) (o : AluOut) : (s.commitFlags o).ram = s.ram := rfl
@[simp] theorem State.commitFlags_misr (s : State) (o : AluOut) : (s.commitFlags o).misr = s.misr := rfl
@[simp] theorem State.commitFlags_uioVal (s : State) (o : AluOut) : (s.commitFlags o).uioVal = s.uioVal := rfl
@[simp] theorem State.commitFlags_uioDir (s : State) (o : AluOut) : (s.commitFlags o).uioDir = s.uioDir := rfl
@[simp] theorem State.commitFlags_ao1 (s : State) (o : AluOut) : (s.commitFlags o).ao1 = s.ao1 := rfl
@[simp] theorem State.commitFlags_ao2 (s : State) (o : AluOut) : (s.commitFlags o).ao2 = s.ao2 := rfl
@[simp] theorem State.commitFlags_out (s : State) (o : AluOut) : (s.commitFlags o).out = s.out := rfl
@[simp] theorem State.commitFlags_req (s : State) (o : AluOut) : (s.commitFlags o).req = s.req := rfl
@[simp] theorem State.commitFlags_prev (s : State) (o : AluOut) : (s.commitFlags o).prev = s.prev := rfl
@[simp] theorem State.commitFlags_inputs (s : State) (o : AluOut) : (s.commitFlags o).inputs = s.inputs := rfl
@[simp] theorem State.commitFlags_micro (s : State) (o : AluOut) : (s.commitFlags o).micro = s.micro := rfl
@[simp] theorem State.commitFlags_run (s : State) (o : AluOut) : (s.commitFlags o).run = s.run := rfl
@[simp] theorem State.commitFlags_boot (s : State) (o : AluOut) : (s.commitFlags o).boot = s.boot := rfl

@[simp] theorem State.setIef_regs (s : State) (v : Bool) : (s.setIef v).regs = s.regs := rfl
@[simp] theorem State.setIef_flags (s : State) (v : Bool) : (s.setIef v).flags = { s.flags with ief := v } := rfl
@[simp] theorem State.setIef_ram (s : State) (v : Bool) : (s.setIef v).ram = s.ram := rfl
@[simp] theorem State.setIef_misr (s : State) (v : Bool) : (s.setIef v).misr = s.misr := rfl
@[simp] theorem State.setIef_uioVal (s : State) (v : Bool) : (s.setIef v).uioVal = s.uioVal := rfl
@[simp] theorem State.setIef_uioDir (s : State) (v : Bool) : (s.setIef v).uioDir = s.uioDir := rfl
@[simp] theorem State.setIef_ao1 (s : State) (v : Bool) : (s.setIef v).ao1 = s.ao1 := rfl
@[simp] theorem State.setIef_ao2 (s : State) (v : Bool) : (s.setIef v).ao2 = s.ao2 := rfl
@[simp] theorem State.setIef_out (s : State) (v : Bool) : (s.setIef v).out = s.out := rfl
@[simp] theorem State.setIef_req (s : State) (v : Bool) : (s.setIef v).req = s.req := rfl
@[simp] theorem State.setIef_prev (s : State) (v : Bool) : (s.setIef v).prev = s.prev := rfl
@[simp] theorem State.setIef_inputs (s : State) (v : Bool) : (s.setIef v).inputs = s.inputs := rfl
@[simp] theorem State.setIef_micro (s : State) (v : Bool) : (s.setIef v).micro = s.micro := rfl
@[simp] theorem State.setIef_run (s : State) (v : Bool) : (s.setIef v).run = s.run := rfl
@[simp] theorem State.setIef_boot (s : State) (v : Bool) : (s.setIef v).boot = s.boot := rfl

@[simp] theorem State.setRun_regs (s : State) (r : RunState) : (s.setRun r).regs = s.regs := rfl
@[simp] theorem State.setRun_flags (s : State) (r : RunState) : (s.setRun r).flags = s.flags := rfl
@[simp] theorem State.setRun_ram (s : State) (r : RunState) : (s.setRun r).ram = s.ram := rfl
@[simp] theorem State.setRun_misr (s : State) (r : RunState) : (s.setRun r).misr = s.misr := rfl
@[simp] theorem State.setRun_uioVal (s : State) (r : RunState) : (s.setRun r).uioVal = s.uioVal := rfl
@[simp] theorem State.setRun_uioDir (s : State) (r : RunState) : (s.setRun r).uioDir = s.uioDir := rfl
@[simp] theorem State.setRun_ao1 (s : State) (r : RunState) : (s.setRun r).ao1 = s.ao1 := rfl
@[simp] theorem State.setRun_ao2 (s : State) (r : RunState) : (s.setRun r).ao2 = s.ao2 := rfl
@[simp] theorem State.setRun_out (s : State) (r : RunState) : (s.setRun r).out = s.out := rfl
@[simp] theorem State.setRun_req (s : State) (r : RunState) : (s.setRun r).req = s.req := rfl
@[simp] theorem State.setRun_prev (s : State) (r : RunState) : (s.setRun r).prev = s.prev := rfl
@[simp] theorem State.setRun_inputs (s : State) (r : RunState) : (s.setRun r).inputs = s.inputs := rfl
@[simp] theorem State.setRun_micro (s : State) (r : RunState) : (s.setRun r).micro = s.micro := rfl
@[simp] theorem State.setRun_run (s : State) (r : RunState) : (s.setRun r).run = r := rfl
@[simp] theorem State.setRun_boot (s : State) (r : RunState) : (s.setRun r).boot = s.boot := rfl

@[simp] theorem State.raise_regs (s : State) (e : Fault) : (s.raise e).regs = s.regs := rfl
@[simp] theorem State.raise_flags (s : State) (e : Fault) : (s.raise e).flags = s.flags := rfl
@[simp] theorem State.raise_ram (s : State) (e : Fault) : (s.raise e).ram = s.ram := rfl
@[simp] theorem State.raise_misr (s : State) (e : Fault) : (s.raise e).misr = s.misr := rfl
@[simp] theorem State.raise_uioVal (s : State) (e : Fault) : (s.raise e).uioVal = s.uioVal := rfl
@[simp] theorem State.raise_uioDir (s : State) (e : Fault) : (s.raise e).uioDir = s.uioDir := rfl
@[simp] theorem State.raise_ao1 (s : State) (e : Fault) : (s.raise e).ao1 = s.ao1 := rfl
@[simp] theorem State.raise_ao2 (s : State) (e : Fault) : (s.raise e).ao2 = s.ao2 := rfl
@[simp] theorem State.raise_out (s : State) (e : Fault) : (s.raise e).out = s.out := rfl
@[simp] theorem State.raise_req (s : State) (e : Fault) : (s.raise e).req = s.req := rfl
@[simp] theorem State.raise_prev (s : State) (e : Fault) : (s.raise e).prev = s.prev := rfl
@[simp] theorem State.raise_inputs (s : State) (e : Fault) : (s.raise e).inputs = s.inputs := rfl
@[simp] theorem State.raise_micro (s : State) (e : Fault) : (s.raise e).micro = s.micro := rfl
@[simp] theorem State.raise_run (s : State) (e : Fault) : (s.raise e).run = .errorHalted e := rfl
@[simp] theorem State.raise_boot (s : State) (e : Fault) : (s.raise e).boot = s.boot := rfl

@[simp] theorem State.setMp_regs (s : State) (a : BitVec 9) : (s.setMp a).regs = s.regs := rfl
@[simp] theorem State.setMp_flags (s : State) (a : BitVec 9) : (s.setMp a).flags = s.flags := rfl
@[simp] theorem State.setMp_ram (s : State) (a : BitVec 9) : (s.setMp a).ram = s.ram := rfl
@[simp] theorem State.setMp_misr (s : State) (a : BitVec 9) : (s.setMp a).misr = s.misr := rfl
@[simp] theorem State.setMp_uioVal (s : State) (a : BitVec 9) : (s.setMp a).uioVal = s.uioVal := rfl
@[simp] theorem State.setMp_uioDir (s : State) (a : BitVec 9) : (s.setMp a).uioDir = s.uioDir := rfl
@[simp] theorem State.setMp_ao1 (s : State) (a : BitVec 9) : (s.setMp a).ao1 = s.ao1 := rfl
@[simp] theorem State.setMp_ao2 (s : State) (a : BitVec 9) : (s.setMp a).ao2 = s.ao2 := rfl
@[simp] theorem State.setMp_out (s : State) (a : BitVec 9) : (s.setMp a).out = s.out := rfl
@[simp] theorem State.setMp_req (s : State) (a : BitVec 9) : (s.setMp a).req = s.req := rfl
@[simp] theorem State.setMp_prev (s : State) (a : BitVec 9) : (s.setMp a).prev = s.prev := rfl
@[simp] theorem State.setMp_inputs (s : State) (a : BitVec 9) : (s.setMp a).inputs = s.inputs := rfl
@[simp] theorem State.setMp_micro (s : State) (a : BitVec 9) : (s.setMp a).micro = { s.micro with mp := a } := rfl
@[simp] theorem State.setMp_run (s : State) (a : BitVec 9) : (s.setMp a).run = s.run := rfl
@[simp] theorem State.setMp_boot (s : State) (a : BitVec 9) : (s.setMp a).boot = s.boot := rfl

@[simp] theorem State.setOpl_regs (s : State) (v : Byte) : (s.setOpl v).regs = s.regs := rfl
@[simp] theorem State.setOpl_flags (s : State) (v : Byte) : (s.setOpl v).flags = s.flags := rfl
@[simp] theorem State.setOpl_ram (s : State) (v : Byte) : (s.setOpl v).ram = s.ram := rfl
@[simp] theorem State.setOpl_misr (s : State) (v : Byte) : (s.setOpl v).misr = s.misr := rfl
@[simp] theorem State.setOpl_uioVal (s : State) (v : Byte) : (s.setOpl v).uioVal = s.uioVal := rfl
@[simp] theorem State.setOpl_uioDir (s : State) (v : Byte) : (s.setOpl v).uioDir = s.uioDir := rfl
@[simp] theorem State.setOpl_ao1 (s : State) (v : Byte) : (s.setOpl v).ao1 = s.ao1 := rfl
@[simp] theorem State.setOpl_ao2 (s : State) (v : Byte) : (s.setOpl v).ao2 = s.ao2 := rfl
@[simp] theorem State.setOpl_out (s : State) (v : Byte) : (s.setOpl v).out = s.out := rfl
@[simp] theorem State.setOpl_req (s : State) (v : Byte) : (s.setOpl v).req = s.req := rfl
@[simp] theorem State.setOpl_prev (s : State) (v : Byte) : (s.setOpl v).prev = s.prev := rfl
@[simp] theorem State.setOpl_inputs (s : State) (v : Byte) : (s.setOpl v).inputs = s.inputs := rfl
@[simp] theorem State.setOpl_micro (s : State) (v : Byte) : (s.setOpl v).micro = { s.micro with opl := v } := rfl
@[simp] theorem State.setOpl_run (s : State) (v : Byte) : (s.setOpl v).run = s.run := rfl
@[simp] theorem State.setOpl_boot (s : State) (v : Byte) : (s.setOpl v).boot = s.boot := rfl

@[simp] theorem State.setPhase_regs (s : State) (ph : Phase) : (s.setPhase ph).regs = s.regs := rfl
@[simp] theorem State.setPhase_flags (s : State) (ph : Phase) : (s.setPhase ph).flags = s.flags := rfl
@[simp] theorem State.setPhase_ram (s : State) (ph : Phase) : (s.setPhase ph).ram = s.ram := rfl
@[simp] theorem State.setPhase_misr (s : State) (ph : Phase) : (s.setPhase ph).misr = s.misr := rfl
@[simp] theorem State.setPhase_uioVal (s : State) (ph : Phase) : (s.setPhase ph).uioVal = s.uioVal := rfl
@[simp] theorem State.setPhase_uioDir (s : State) (ph : Phase) : (s.setPhase ph).uioDir = s.uioDir := rfl
@[simp] theorem State.setPhase_ao1 (s : State) (ph : Phase) : (s.setPhase ph).ao1 = s.ao1 := rfl
@[simp] theorem State.setPhase_ao2 (s : State) (ph : Phase) : (s.setPhase ph).ao2 = s.ao2 := rfl
@[simp] theorem State.setPhase_out (s : State) (ph : Phase) : (s.setPhase ph).out = s.out := rfl
@[simp] theorem State.setPhase_req (s : State) (ph : Phase) : (s.setPhase ph).req = s.req := rfl
@[simp] theorem State.setPhase_prev (s : State) (ph : Phase) : (s.setPhase ph).prev = s.prev := rfl
@[simp] theorem State.setPhase_inputs (s : State) (ph : Phase) : (s.setPhase ph).inputs = s.inputs := rfl
@[simp] theorem State.setPhase_micro (s : State) (ph : Phase) : (s.setPhase ph).micro = { s.micro with phase := ph } := rfl
@[simp] theorem State.setPhase_run (s : State) (ph : Phase) : (s.setPhase ph).run = s.run := rfl
@[simp] theorem State.setPhase_boot (s : State) (ph : Phase) : (s.setPhase ph).boot = s.boot := rfl

@[simp] theorem State.setResultFlags_regs (s : State) (f : Byte) (c : Bool) : (s.setResultFlags f c).regs = s.regs := rfl
@[simp] theorem State.setResultFlags_flags (s : State) (f : Byte) (c : Bool) : (s.setResultFlags f c).flags = ⟨c, decide (f = 0#8), decide (128 ≤ f.toNat), s.flags.ief⟩ := rfl
@[simp] theorem State.setResultFlags_ram (s : State) (f : Byte) (c : Bool) : (s.setResultFlags f c).ram = s.ram := rfl
@[simp] theorem State.setResultFlags_misr (s : State) (f : Byte) (c : Bool) : (s.setResultFlags f c).misr = s.misr := rfl
@[simp] theorem State.setResultFlags_uioVal (s : State) (f : Byte) (c : Bool) : (s.setResultFlags f c).uioVal = s.uioVal := rfl
@[simp] theorem State.setResultFlags_uioDir (s : State) (f : Byte) (c : Bool) : (s.setResultFlags f c).uioDir = s.uioDir := rfl
@[simp] theorem State.setResultFlags_ao1 (s : State) (f : Byte) (c : Bool) : (s.setResultFlags f c).ao1 = s.ao1 := rfl
@[simp] theorem State.setResultFlags_ao2 (s : State) (f : Byte) (c : Bool) : (s.setResultFlags f c).ao2 = s.ao2 := rfl
@[simp] theorem State.setResultFlags_out (s : State) (f : Byte) (c : Bool) : (s.setResultFlags f c).out = s.out := rfl
@[simp] theorem State.setResultFlags_req (s : State) (f : Byte) (c : Bool) : (s.setResultFlags f c).req = s.req := rfl
@[simp] theorem State.setResultFlags_prev (s : State) (f : Byte) (c : Bool) : (s.setResultFlags f c).prev = s.prev := rfl
@[simp] theorem State.setResultFlags_inputs (s : State) (f : Byte) (c : Bool) : (s.setResultFlags f c).inputs = s.inputs := rfl
@[simp] theorem State.setResultFlags_micro (s : State) (f : Byte) (c : Bool) : (s.setResultFlags f c).micro = s.micro := rfl
@[simp] theorem State.setResultFlags_run (s : State) (f : Byte) (c : Bool) : (s.setResultFlags f c).run = s.run := rfl
@[simp] theorem State.setResultFlags_boot (s : State) (f : Byte) (c : Bool) : (s.setResultFlags f c).boot = s.boot := rfl

@[simp] theorem State.sampleInputs_regs (s : State) : s.sampleInputs.regs = s.regs := rfl
@[simp] theorem State.sampleInputs_flags (s : State) : s.sampleInputs.flags = s.flags := rfl
@[simp] theorem State.sampleInputs_ram (s : State) : s.sampleInputs.ram = s.ram := rfl
@[simp] theorem State.sampleInputs_misr (s : State) : s.sampleInputs.misr = s.misr := rfl
@[simp] theorem State.sampleInputs_uioVal (s : State) : s.sampleInputs.uioVal = s.uioVal := rfl
@[simp] theorem State.sampleInputs_uioDir (s : State) : s.sampleInputs.uioDir = s.uioDir := rfl
@[simp] theorem State.sampleInputs_ao1 (s : State) : s.sampleInputs.ao1 = s.ao1 := rfl
@[simp] theorem State.sampleInputs_ao2 (s : State) : s.sampleInputs.ao2 = s.ao2 := rfl
@[simp] theorem State.sampleInputs_out (s : State) : s.sampleInputs.out = s.out := rfl
@[simp] theorem State.sampleInputs_req (s : State) : s.sampleInputs.req = .tabulate fun i => s.req.get i || s.enabledEdge i := rfl
@[simp] theorem State.sampleInputs_prev (s : State) : s.sampleInputs.prev = .tabulate s.sourceLevel := rfl
@[simp] theorem State.sampleInputs_inputs (s : State) : s.sampleInputs.inputs = s.inputs := rfl
@[simp] theorem State.sampleInputs_micro (s : State) : s.sampleInputs.micro = s.micro := rfl
@[simp] theorem State.sampleInputs_run (s : State) : s.sampleInputs.run = s.run := rfl
@[simp] theorem State.sampleInputs_boot (s : State) : s.sampleInputs.boot = s.boot := rfl

/-! ### Registers of the updated state -/

@[simp] theorem State.setReg_reg_same (s : State) (r : Reg) (v : Byte) : (s.setReg r v).reg r = v := by
  simp [State.reg]

theorem State.setReg_reg_ne (s : State) {r q : Reg} (v : Byte) (h : q ≠ r) : (s.setReg r v).reg q = s.reg q := by
  simp [State.reg, RegBlock.get_set_ne _ _ h]

theorem State.setPc_eq_setReg (s : State) (v : Byte) : s.setPc v = s.setReg .r3 v := rfl
theorem State.setSp_eq_setReg (s : State) (v : Byte) : s.setSp v = s.setReg .r4 v := rfl

@[simp] theorem State.setPc_pc (s : State) (v : Byte) : (s.setPc v).pc = v := rfl
@[simp] theorem State.setPc_sp (s : State) (v : Byte) : (s.setPc v).sp = s.sp := rfl
@[simp] theorem State.setSp_sp (s : State) (v : Byte) : (s.setSp v).sp = v := rfl
@[simp] theorem State.setSp_pc (s : State) (v : Byte) : (s.setSp v).pc = s.pc := rfl
@[simp] theorem State.setPc_setPc (s : State) (v w : Byte) : (s.setPc v).setPc w = s.setPc w := rfl

theorem State.setPc_reg_ne (s : State) {q : Reg} (v : Byte) (h : q ≠ .r3) : (s.setPc v).reg q = s.reg q :=
  State.setReg_reg_ne s v h

@[simp] theorem State.commitFlags_reg (s : State) (o : AluOut) (q : Reg) : (s.commitFlags o).reg q = s.reg q := rfl
@[simp] theorem State.commitFlags_pc (s : State) (o : AluOut) : (s.commitFlags o).pc = s.pc := rfl
@[simp] theorem State.commitFlags_sp (s : State) (o : AluOut) : (s.commitFlags o).sp = s.sp := rfl
@[simp] theorem State.setIef_reg (s : State) (v : Bool) (q : Reg) : (s.setIef v).reg q = s.reg q := rfl
@[simp] theorem State.setIef_pc (s : State) (v : Bool) : (s.setIef v).pc = s.pc := rfl
@[simp] theorem State.setIef_sp (s : State) (v : Bool) : (s.setIef v).sp = s.sp := rfl
@[simp] theorem State.setRun_reg (s : State) (r : RunState) (q : Reg) : (s.setRun r).reg q = s.reg q := rfl
@[simp] theorem State.setRun_pc (s : State) (r : RunState) : (s.setRun r).pc = s.pc := rfl
@[simp] theorem State.setRun_sp (s : State) (r : RunState) : (s.setRun r).sp = s.sp := rfl
@[simp] theorem State.raise_reg (s : State) (e : Fault) (q : Reg) : (s.raise e).reg q = s.reg q := rfl
@[simp] theorem State.raise_pc (s : State) (e : Fault) : (s.raise e).pc = s.pc := rfl
@[simp] theorem State.raise_sp (s : State) (e : Fault) : (s.raise e).sp = s.sp := rfl
@[simp] theorem State.setMp_reg (s : State) (a : BitVec 9) (q : Reg) : (s.setMp a).reg q = s.reg q := rfl
@[simp] theorem State.setMp_pc (s : State) (a : BitVec 9) : (s.setMp a).pc = s.pc := rfl
@[simp] theorem State.setMp_sp (s : State) (a : BitVec 9) : (s.setMp a).sp = s.sp := rfl
@[simp] theorem State.setOpl_reg (s : State) (v : Byte) (q : Reg) : (s.setOpl v).reg q = s.reg q := rfl
@[simp] theorem State.setOpl_pc (s : State) (v : Byte) : (s.setOpl v).pc = s.pc := rfl
@[simp] theorem State.setOpl_sp (s : State) (v : Byte) : (s.setOpl v).sp = s.sp := rfl
@[simp] theorem State.setPhase_reg (s : State) (ph : Phase) (q : Reg) : (s.setPhase ph).reg q = s.reg q := rfl
@[simp] theorem State.setPhase_pc (s : State) (ph : Phase) : (s.setPhase ph).pc = s.pc := rfl
@[simp] theorem State.setPhase_sp (s : State) (ph : Phase) : (s.setPhase ph).sp = s.sp := rfl
@[simp] theorem State.setResultFlags_reg (s : State) (f : Byte) (c : Bool) (q : Reg) : (s.setResultFlags f c).reg q = s.reg q := rfl
@[simp] theorem State.setResultFlags_pc (s : State) (f : Byte) (c : Bool) : (s.setResultFlags f c).pc = s.pc := rfl
@[simp] theorem State.setResultFlags_sp (s : State) (f : Byte) (c : Bool) : (s.setResultFlags f c).sp = s.sp := rfl
@[simp] theorem State.sampleInputs_reg (s : State) (q : Reg) : s.sampleInputs.reg q = s.reg q := rfl
@[simp] theorem State.sampleInputs_pc (s : State) : s.sampleInputs.pc = s.pc := rfl
@[simp] theorem State.sampleInputs_sp (s : State) : s.sampleInputs.sp = s.sp := rfl

/-! ### What the bus sees of the updated state -/

@[simp] theorem State.setReg_busValue (s : State) (r : Reg) (v : Byte) (x : Byte) : (s.setReg r v).busValue x = s.busValue x := rfl
@[simp] theorem State.setReg_busRead (s : State) (r : Reg) (v : Byte) (x : Byte) : (s.setReg r v).busRead x = s.busRead x := rfl
@[simp] theorem State.setReg_cell (s : State) (r : Reg) (v : Byte) (x : Byte) : (s.setReg r v).cell x = s.cell x := rfl
@[simp] theorem State.setReg_readable (s : State) (r : Reg) (v : Byte) (x : Byte) : (s.setReg r v).Readable x = s.Readable x := rfl
@[simp] theorem State.setReg_writable (s : State) (r : Reg) (v : Byte) (x : Byte) : (s.setReg r v).Writable x = s.Writable x := rfl
@[simp] theorem State.setPc_busValue (s : State) (v : Byte) (x : Byte) : (s.setPc v).busValue x = s.busValue x := rfl
@[simp] theorem State.setPc_busRead (s : State) (v : Byte) (x : Byte) : (s.setPc v).busRead x = s.busRead x := rfl
@[simp] theorem State.setPc_cell (s : State) (v : Byte) (x : Byte) : (s.setPc v).cell x = s.cell x := rfl
@[simp] theorem State.setPc_readable (s : State) (v : Byte) (x : Byte) : (s.setPc v).Readable x = s.Readable x := rfl
@[simp] theorem State.setPc_writable (s : State) (v : Byte) (x : Byte) : (s.setPc v).Writable x = s.Writable x := rfl
@[simp] theorem State.setSp_busValue (s : State) (v : Byte) (x : Byte) : (s.setSp v).busValue x = s.busValue x := rfl
@[simp] theorem State.setSp_busRead (s : State) (v : Byte) (x : Byte) : (s.setSp v).busRead x = s.busRead x := rfl
@[simp] theorem State.setSp_cell (s : State) (v : Byte) (x : Byte) : (s.setSp v).cell x = s.cell x := rfl
@[simp] theorem State.setSp_readable (s : State) (v : Byte) (x : Byte) : (s.setSp v).Readable x = s.Readable x := rfl
@[simp] theorem State.setSp_writable (s : State) (v : Byte) (x : Byte) : (s.setSp v).Writable x = s.Writable x := rfl
@[simp] theorem State.commitFlags_busValue (s : State) (o : AluOut) (x : Byte) : (s.commitFlags o).busValue x = s.busValue x := rfl
@[simp] theorem State.commitFlags_busRead (s : State) (o : AluOut) (x : Byte) : (s.commitFlags o).busRead x = s.busRead x := rfl
@[simp] theorem State.commitFlags_cell (s : State) (o : AluOut) (x : Byte) : (s.commitFlags o).cell x = s.cell x := rfl
@[simp] theorem State.commitFlags_readable (s : State) (o : AluOut) (x : Byte) : (s.commitFlags o).Readable x = s.Readable x := rfl
@[simp] theorem State.commitFlags_writable (s : State) (o : AluOut) (x : Byte) : (s.commitFlags o).Writable x = s.Writable x := rfl
@[simp] theorem State.setIef_busValue (s : State) (v : Bool) (x : Byte) : (s.setIef v).busValue x = s.busValue x := rfl
@[simp] theorem State.setIef_busRead (s : State) (v : Bool) (x : Byte) : (s.setIef v).busRead x = s.busRead x := rfl
@[simp] theorem State.setIef_cell (s : State) (v : Bool) (x : Byte) : (s.setIef v).cell x = s.cell x := rfl
@[simp] theorem State.setIef_readable (s : State) (v : Bool) (x : Byte) : (s.setIef v).Readable x = s.Readable x := rfl
@[simp] theorem State.setIef_writable (s : State) (v : Bool) (x : Byte) : (s.setIef v).Writable x = s.Writable x := rfl
@[simp] theorem State.setRun_busValue (s : State) (r : RunState) (x : Byte) : (s.setRun r).busValue x = s.busValue x := rfl
@[simp] theorem State.setRun_busRead (s : State) (r : RunState) (x : Byte) : (s.setRun r).busRead x = s.busRead x := rfl
@[simp] theorem State.setRun_cell (s : State) (r : RunState) (x : Byte) : (s.setRun r).cell x = s.cell x := rfl
@[simp] theorem State.setRun_readable (s : State) (r : RunState) (x : Byte) : (s.setRun r).Readable x = s.Readable x := rfl
@[simp] theorem State.setRun_writable (s : State) (r : RunState) (x : Byte) : (s.setRun r).Writable x = s.Writable x := rfl
@[simp] theorem State.raise_busValue (s : State) (e : Fault) (x : Byte) : (s.raise e).busValue x = s.busValue x := rfl
@[simp] theorem State.raise_busRead (s : State) (e : Fault) (x : Byte) : (s.raise e).busRead x = s.busRead x := rfl
@[simp] theorem State.raise_cell (s : State) (e : Fault) (x : Byte) : (s.raise e).cell x = s.cell x := rfl
@[simp] theorem State.raise_readable (s : State) (e : Fault) (x : Byte) : (s.raise e).Readable x = s.Readable x := rfl
@[simp] theorem State.raise_writable (s : State) (e : Fault) (x : Byte) : (s.raise e).Writable x = s.Writable x := rfl
@[simp] theorem State.setMp_busValue (s : State) (a : BitVec 9) (x : Byte) : (s.setMp a).busValue x = s.busValue x := rfl
@[simp] theorem State.setMp_busRead (s : State) (a : BitVec 9) (x : Byte) : (s.setMp a).busRead x = s.busRead x := rfl
@[simp] theorem State.setMp_cell (s : State) (a : BitVec 9) (x : Byte) : (s.setMp a).cell x = s.cell x := rfl
@[simp] theorem State.setMp_readable (s : State) (a : BitVec 9) (x : Byte) : (s.setMp a).Readable x = s.Readable x := rfl
@[simp] theorem State.setMp_writable (s : State) (a : BitVec 9) (x : Byte) : (s.setMp a).Writable x = s.Writable x := rfl
@[simp] theorem State.setOpl_busValue (s : State) (v : Byte) (x : Byte) : (s.setOpl v).busValue x = s.busValue x := rfl
@[simp] theorem State.setOpl_busRead (s : State) (v : Byte) (x : Byte) : (s.setOpl v).busRead x = s.busRead x := rfl
@[simp] theorem State.setOpl_cell (s : State) (v : Byte) (x : Byte) : (s.setOpl v).cell x = s.cell x := rfl
@[simp] theorem State.setOpl_readable (s : State) (v : Byte) (x : Byte) : (s.setOpl v).Readable x = s.Readable x := rfl
@[simp] theorem State.setOpl_writable (s : State) (v : Byte) (x : Byte) : (s.setOpl v).Writable x = s.Writable x := rfl
@[simp] theorem State.setPhase_busValue (s : State) (ph : Phase) (x : Byte) : (s.setPhase ph).busValue x = s.busValue x := rfl
@[simp] theorem State.setPhase_busRead (s : State) (ph : Phase) (x : Byte) : (s.setPhase ph).busRead x = s.busRead x := rfl
@[simp] theorem State.setPhase_cell (s : State) (ph : Phase) (x : Byte) : (s.setPhase ph).cell x = s.cell x := rfl
@[simp] theorem State.setPhase_readable (s : State) (ph : Phase) (x : Byte) : (s.setPhase ph).Readable x = s.Readable x := rfl
@[simp] theorem State.setPhase_writable (s : State) (ph : Phase) (x : Byte) : (s.setPhase ph).Writable x = s.Writable x := rfl
@[simp] theorem State.setResultFlags_busValue (s : State) (f : Byte) (c : Bool) (x : Byte) : (s.setResultFlags f c).busValue x = s.busValue x := rfl
@[simp] theorem State.setResultFlags_busRead (s : State) (f : Byte) (c : Bool) (x : Byte) : (s.setResultFlags f c).busRead x = s.busRead x := rfl
@[simp] theorem State.setResultFlags_cell (s : State) (f : Byte) (c : Bool) (x : Byte) : (s.setResultFlags f c).cell x = s.cell x := rfl
@[simp] theorem State.setResultFlags_readable (s : State) (f : Byte) (c : Bool) (x : Byte) : (s.setResultFlags f c).Readable x = s.Readable x := rfl
@[simp] theorem State.setResultFlags_writable (s : State) (f : Byte) (c : Bool) (x : Byte) : (s.setResultFlags f c).Writable x = s.Writable x := rfl
@[simp] theorem State.sampleInputs_busValue (s : State) (x : Byte) : s.sampleInputs.busValue x = s.busValue x := rfl
@[simp] theorem State.sampleInputs_busRead (s : State) (x : Byte) : s.sampleInputs.busRead x = s.busRead x := rfl
@[simp] theorem State.sampleInputs_cell (s : State) (x : Byte) : s.sampleInputs.cell x = s.cell x := rfl
@[simp] theorem State.sampleInputs_readable (s : State) (x : Byte) : s.sampleInputs.Readable x = s.Readable x := rfl
@[simp] theorem State.sampleInputs_writable (s : State) (x : Byte) : s.sampleInputs.Writable x = s.Writable x := rfl

/-! ### Fields after a store -/

@[simp] theorem State.store_regs (s : State) (a v : Byte) : (s.store a v).regs = s.regs := by
  unfold State.store; split <;> rfl
@[simp] theorem State.store_flags (s : State) (a v : Byte) : (s.store a v).flags = s.flags := by
  unfold State.store; split <;> rfl
@[simp] theorem State.store_req (s : State) (a v : Byte) : (s.store a v).req = s.req := by
  unfold State.store; split <;> rfl
@[simp] theorem State.store_prev (s : State) (a v : Byte) : (s.store a v).prev = s.prev := by
  unfold State.store; split <;> rfl
@[simp] theorem State.store_inputs (s : State) (a v : Byte) : (s.store a v).inputs = s.inputs := by
  unfold State.store; split <;> rfl
@[simp] theorem State.store_micro (s : State) (a v : Byte) : (s.store a v).micro = s.micro := by
  unfold State.store; split <;> rfl
@[simp] theorem State.store_run (s : State) (a v : Byte) : (s.store a v).run = s.run := by
  unfold State.store; split <;> rfl
@[simp] theorem State.store_boot (s : State) (a v : Byte) : (s.store a v).boot = s.boot := by
  unfold State.store; split <;> rfl
@[simp] theorem State.store_reg (s : State) (a v : Byte) (q : Reg) : (s.store a v).reg q = s.reg q := by
  simp [State.reg]
@[simp] theorem State.store_pc (s : State) (a v : Byte) : (s.store a v).pc = s.pc := by simp [State.pc]
@[simp] theorem State.store_sp (s : State) (a v : Byte) : (s.store a v).sp = s.sp := by simp [State.sp]

end Sys2Proof.Machine
end

