-- ==== Sys2Proof/Laws/Memory.lean ====
section
/-! SUPPORT. RAM: a read after a write, and the canonical form, which every memory operation keeps. -/

namespace Sys2Proof.Machine

theorem Memory.read_entry (a : Nat) (v : Byte) (m : Memory) (b : Nat) (hm : a = b → m.read b = 0#8) :
    (Memory.entry a v m).read b = if a = b then v else m.read b := by
  unfold Memory.entry
  by_cases hv : v = 0#8
  · by_cases hab : a = b
    · simp [hv, hab, hm hab]
    · simp [hv, hab]
  · simp [hv, Memory.read]

/-- Below the least listed address every byte reads as 0x00. -/
theorem Memory.read_of_lt {lo : Nat} {m : Memory} (h : Memory.wfFrom lo m = true) {b : Nat} (hb : b < lo) :
    m.read b = 0#8 := by
  induction m generalizing lo with
  | nil => rfl
  | cons p m ih =>
    obtain ⟨k, w⟩ := p
    simp only [Memory.wfFrom, Bool.and_eq_true, decide_eq_true_eq] at h
    obtain ⟨⟨⟨hlo, -⟩, -⟩, hm⟩ := h
    simp only [Memory.read, if_neg (by omega : ¬ k = b)]
    exact ih hm (by omega)

theorem Memory.wfFrom_mono {lo lo' : Nat} {m : Memory} (h : Memory.wfFrom lo m = true) (hl : lo' ≤ lo) :
    Memory.wfFrom lo' m = true := by
  cases m with
  | nil => rfl
  | cons p m =>
    obtain ⟨k, w⟩ := p
    simp only [Memory.wfFrom, Bool.and_eq_true, decide_eq_true_eq] at h ⊢
    exact ⟨⟨⟨by omega, h.1.1.2⟩, h.1.2⟩, h.2⟩

theorem Memory.wfFrom_entry {lo a : Nat} {v : Byte} {m : Memory} (hlo : lo ≤ a) (ha : a < Config.ramSize)
    (h : Memory.wfFrom (a + 1) m = true) : Memory.wfFrom lo (Memory.entry a v m) = true := by
  unfold Memory.entry
  split
  · exact Memory.wfFrom_mono h (by omega)
  · simp [Memory.wfFrom, *]

theorem Memory.wfFrom_write {lo a : Nat} {v : Byte} {m : Memory} (hlo : lo ≤ a) (ha : a < Config.ramSize)
    (h : Memory.wfFrom lo m = true) : Memory.wfFrom lo (m.write a v) = true := by
  induction m generalizing lo with
  | nil => exact Memory.wfFrom_entry hlo ha rfl
  | cons p m ih =>
    obtain ⟨k, w⟩ := p
    simp only [Memory.wfFrom, Bool.and_eq_true, decide_eq_true_eq] at h
    obtain ⟨⟨⟨hk, hk'⟩, hw⟩, hm⟩ := h
    unfold Memory.write
    split
    · exact Memory.wfFrom_entry hlo ha (by simp [Memory.wfFrom, hk', hm, hw]; omega)
    · split
      · subst a; exact Memory.wfFrom_entry hk hk' hm
      · simp only [Memory.wfFrom, Bool.and_eq_true, decide_eq_true_eq]
        exact ⟨⟨⟨hk, hk'⟩, hw⟩, ih (by omega) hm⟩

/-- A write of a RAM address keeps the canonical form. -/
theorem Memory.wf_write {a : Nat} {v : Byte} {m : Memory} (ha : a < Config.ramSize) (h : m.wf = true) :
    (m.write a v).wf = true :=
  Memory.wfFrom_write (Nat.zero_le a) ha h

theorem Memory.wf_empty : Memory.wf [] = true := rfl

theorem Memory.read_write_from {lo a : Nat} {v : Byte} {m : Memory} (h : Memory.wfFrom lo m = true) (b : Nat) :
    (m.write a v).read b = if a = b then v else m.read b := by
  induction m generalizing lo with
  | nil => exact Memory.read_entry a v [] b fun _ => rfl
  | cons p m ih =>
    obtain ⟨k, w⟩ := p
    have hwf := h
    simp only [Memory.wfFrom, Bool.and_eq_true, decide_eq_true_eq] at h
    unfold Memory.write
    split
    · rename_i hak
      refine Memory.read_entry a v _ b fun hab => ?_
      have : Memory.wfFrom k ((k, w) :: m) = true := by simp [Memory.wfFrom, h.1.1.2, h.1.2, h.2]
      exact Memory.read_of_lt this (by omega)
    · split
      · subst a
        rw [Memory.read_entry k v m b fun hab => Memory.read_of_lt h.2 (by omega)]
        by_cases hkb : k = b <;> simp [Memory.read, hkb]
      · rw [Memory.read, ih h.2, Memory.read]
        by_cases hkb : k = b
        · have : ¬ a = b := by omega
          simp [hkb, this]
        · simp [hkb]

/-- In canonical RAM, a read after a write gives the byte written at its address and the old byte elsewhere. -/
theorem Memory.read_write {a : Nat} {v : Byte} {m : Memory} (h : m.wf = true) (b : Nat) :
    (m.write a v).read b = if a = b then v else m.read b :=
  Memory.read_write_from h b

/-- An address other than the one written reads as before, canonical form or not. -/
theorem Memory.read_write_ne (m : Memory) {a b : Nat} (v : Byte) (hab : a ≠ b) : (m.write a v).read b = m.read b := by
  induction m with
  | nil => unfold Memory.write Memory.entry; split <;> simp [Memory.read, hab]
  | cons p m ih =>
    obtain ⟨k, w⟩ := p
    unfold Memory.write Memory.entry
    split
    · split <;> simp [Memory.read, hab]
    · split
      · subst a; split <;> simp [Memory.read, hab]
      · simp [Memory.read, ih]

end Sys2Proof.Machine
end

