-- ==== Sys2Proof/Laws/Ops.lean ====
section
/-! SUPPORT. For each shared operation, one lemma that says what it does when it answers, and when it does. Proofs cite
these and unfold none of the operations. -/

namespace Sys2Proof.Machine

/-! ### The bus -/

/-- A read answers the byte behind the address, exactly where it is readable. -/
theorem State.busRead_ok_iff {s : State} {a v : Byte} :
    s.busRead a = .ok v ↔ s.Readable a ∧ v = s.busValue a := by
  unfold State.busRead State.Readable
  split
  · simp [*]
  · simp only [Except.ok.injEq, *, not_false_eq_true, true_and]
    exact eq_comm

theorem State.busRead_of_readable {s : State} {a : Byte} (h : s.Readable a) : s.busRead a = .ok (s.busValue a) :=
  State.busRead_ok_iff.2 ⟨h, rfl⟩

/-- A read that raises, raises `UndefinedInput` with the address, exactly where it is not readable. -/
theorem State.busRead_error_iff {s : State} {a : Byte} {e : Fault} :
    s.busRead a = .error e ↔ ¬ s.Readable a ∧ e = .undefinedInput a := by
  unfold State.busRead State.Readable
  split
  · simp only [Except.error.injEq, *, not_true_eq_false, not_false_eq_true, true_and, and_self]
    exact eq_comm
  · simp [*]

/-- In permissive mode every address is readable. -/
theorem State.readable_of_permissive {s : State} (h : s.boot.strictIo = false) (a : Byte) : s.Readable a := by
  simp [State.Readable, h]

/-- A write answers the store, exactly where the check lets it. -/
theorem State.busWrite_ok_iff {s t : State} {a v : Byte} {k : WriteKind} :
    s.busWrite a v k = .ok t ↔ s.boot.writeCheck a k = none ∧ t = s.store a v := by
  unfold State.busWrite
  cases s.boot.writeCheck a k with
  | none => simp only [Except.ok.injEq, true_and]; exact eq_comm
  | some e => simp

/-- A write that raises, raises what the check says. -/
theorem State.busWrite_error_iff {s : State} {a v : Byte} {k : WriteKind} {e : Fault} :
    s.busWrite a v k = .error e ↔ s.boot.writeCheck a k = some e := by
  unfold State.busWrite
  split <;> simp_all

theorem BootConfig.writeCheck_stack (b : BootConfig) (a : Byte) :
    b.writeCheck a .stack = none ∨ b.writeCheck a .stack = some (.stackOverflow a) := by
  unfold BootConfig.writeCheck; simp only; split <;> simp

theorem BootConfig.writeCheck_data (b : BootConfig) (a : Byte) :
    b.writeCheck a .data = none ∨ b.writeCheck a .data = some (.outOfBoundsWrite a) := by
  unfold BootConfig.writeCheck; simp only; split <;> simp

/-- An address the map sends to RAM is below 0xF0, and no other is. -/
theorem region_eq_ram_iff (a : Byte) : region a = .ram ↔ a.toNat < Config.ramSize := by
  unfold region
  split
  · simp [*]
  · simp only [*, iff_false]
    split <;> simp

/-- A register written before or after a store makes no difference. -/
theorem State.store_setReg (s : State) (r : Reg) (v a w : Byte) :
    (s.setReg r v).store a w = (s.store a w).setReg r v := by
  unfold State.store State.setReg; split <;> rfl

/-- A store of RAM leaves every other part of the state. -/
theorem State.store_ram {s : State} {a v : Byte} (h : region a = .ram) :
    s.store a v = { s with ram := s.ram.write a.toNat v } := by
  unfold State.store; rw [h]

/-- The one address of each region that is a single register. -/
def Region.address : Region → Option Byte
  | .f0 => some 0xF0#8 | .f1 => some 0xF1#8 | .uio => some 0xF2#8 | .status => some 0xF3#8
  | .misr => some 0xF9#8
  | .port .fc => some 0xFC#8 | .port .fd => some 0xFD#8 | .port .fe => some 0xFE#8 | .port .ff => some 0xFF#8
  | .ram | .nothing => none

theorem region_address : ∀ a c : Byte, (region a).address = some c → a = c := by
  have h : ∀ a : Byte, (region a).address = none ∨ (region a).address = some a := by decide
  intro a c hc
  rcases h a with h | h <;> simp_all

/-- Two addresses of one register are one address. -/
theorem region_register_unique {a b c : Byte} (ha : (region a).address = some c) (hb : (region b).address = some c) :
    b = a :=
  (region_address b c hb).trans (region_address a c ha).symm

/-- A store changes nothing behind any other address. -/
theorem State.store_cell_ne (s : State) {a b : Byte} (v : Byte) (h : b ≠ a) : (s.store a v).cell b = s.cell b := by
  have hn : a.toNat ≠ b.toNat := fun e => h (BitVec.eq_of_toNat_eq e).symm
  have hu : ∀ {c : Byte}, (region a).address = some c → (region b).address = some c → False :=
    fun ha hb => h (region_register_unique ha hb)
  unfold State.store State.cell
  rcases ha : region a with _ | _ | _ | _ | _ | _ | _ | p <;>
    rcases hb : region b with _ | _ | _ | _ | _ | _ | _ | q <;>
    rw [ha, hb] at hu <;> first
    | rfl
    | exact Memory.read_write_ne _ _ hn
    | exact (hu rfl rfl).elim
    | (cases p <;> cases q <;> first | rfl | exact (hu rfl rfl).elim)

/-- What a store leaves behind its own address: the byte, with bits 3 and 7 dropped at 0xF2, and nothing where the address
has no register to write. -/
theorem State.store_cell_same {s : State} (hwf : s.ram.wf = true) (a v : Byte) :
    (s.store a v).cell a =
      match region a with
      | .ram | .f0 | .f1 | .misr | .port _ => v
      | .uio => 0#1 ++ v.extractLsb' 4 3 ++ 0#1 ++ v.extractLsb' 0 3
      | .status | .nothing => 0#8 := by
  unfold State.store State.cell
  rcases ha : region a with _ | _ | _ | _ | _ | _ | _ | p <;> simp [Memory.read_write hwf]

/-- A store keeps RAM in canonical form. -/
theorem State.store_wf {s : State} (h : s.ram.wf = true) (a v : Byte) : (s.store a v).ram.wf = true := by
  unfold State.store
  split <;> first | exact h | skip
  rename_i hr
  exact Memory.wf_write ((region_eq_ram_iff a).1 hr) h

/-! ### The stack -/

/-- A push that answers decrements the SP and stores at the new SP. -/
theorem State.push_ok_iff {s t : State} {v : Byte} :
    s.push v = .ok t ↔ s.PushAllowed ∧ t = (s.store (s.sp - 1) v).setSp (s.sp - 1) := by
  unfold State.push
  simp only [State.busWrite_ok_iff, State.setSp_sp, State.setSp_boot, State.PushAllowed]
  rw [State.setSp_eq_setReg, State.store_setReg]
  rfl

/-- A push that raises, raises `StackOverflow` with the refused address. -/
theorem State.push_error_iff {s : State} {v : Byte} {e : Fault} :
    s.push v = .error e ↔ ¬ s.PushAllowed ∧ e = .stackOverflow (s.sp - 1) := by
  unfold State.push State.PushAllowed
  simp only [State.busWrite_error_iff, State.setSp_sp, State.setSp_boot]
  rcases s.boot.writeCheck_stack (s.sp - 1) with h | h <;> rw [h]
  · simp
  · simp only [Option.some.injEq, reduceCtorEq, not_false_eq_true, true_and]
    exact eq_comm

/-- A pop that answers gives the byte at the SP and increments the SP. -/
theorem State.pop_ok_iff {s t : State} {v : Byte} :
    s.pop = .ok (v, t) ↔ s.Readable s.sp ∧ v = s.busValue s.sp ∧ t = s.setSp (s.sp + 1) := by
  by_cases h : s.Readable s.sp
  · simp [State.pop, State.busRead_of_readable h, h, bind, Except.bind, pure, Except.pure, eq_comm]
  · have := (State.busRead_error_iff (e := .undefinedInput s.sp)).2 ⟨h, rfl⟩
    simp [State.pop, this, h, bind, Except.bind]

/-- A pop that raises, raises `UndefinedInput` with the SP. -/
theorem State.pop_error_iff {s : State} {e : Fault} :
    s.pop = .error e ↔ ¬ s.Readable s.sp ∧ e = .undefinedInput s.sp := by
  by_cases h : s.Readable s.sp
  · simp [State.pop, State.busRead_of_readable h, h, bind, Except.bind, pure, Except.pure]
  · have := (State.busRead_error_iff (e := .undefinedInput s.sp)).2 ⟨h, rfl⟩
    simp [State.pop, this, h, bind, Except.bind, eq_comm]

/-! ### Precise steps -/

@[simp] theorem State.orRaise_ok (s t : State) : s.orRaise (.ok t) = t := rfl
@[simp] theorem State.orRaise_error (s : State) (e : Fault) : s.orRaise (.error e) = s.raise e := rfl

/-- An instruction answers what its body computes from the PC past it. -/
theorem instruction_ok {len : Byte} {body : State → Except Fault State} {s t : State}
    (h : body (s.setPc (s.pc + len)) = .ok t) : instruction len body s = .next t := by
  unfold instruction; rw [h]; rfl

/-- An instruction whose body raises leaves the state but for the run state. -/
theorem instruction_error {len : Byte} {body : State → Except Fault State} {s : State} {e : Fault}
    (h : body (s.setPc (s.pc + len)) = .error e) : instruction len body s = .next (s.raise e) := by
  unfold instruction; rw [h]; rfl

/-- Everything an instruction can answer: what its body computes, or the error raised in the state it began in. -/
theorem instruction_cases {len : Byte} {body : State → Except Fault State} {s t : State}
    (h : instruction len body s = .next t) :
    body (s.setPc (s.pc + len)) = .ok t ∨
      ∃ e, body (s.setPc (s.pc + len)) = .error e ∧ t = s.raise e := by
  unfold instruction at h
  cases hb : body (s.setPc (s.pc + len)) with
  | ok u => rw [hb] at h; cases h; exact .inl rfl
  | error e => rw [hb] at h; cases h; exact .inr ⟨e, rfl, rfl⟩

/-! ### Interrupts -/

/-- An interrupt entry that answers changes the SP, the stack slot, the PC, IEF, one pending bit and one request. -/
theorem State.enterInterrupt_ok_iff {s t : State} {i : Source} :
    s.enterInterrupt i = .ok t ↔
      s.PushAllowed ∧
        t = ({ (((s.store (s.sp - 1) s.pc).setSp (s.sp - 1)).setIef false) with
              misr := setPending (s.store (s.sp - 1) s.pc).misr i
              req := s.req.set i false } : State).setPc Config.isrVector := by
  by_cases h : s.PushAllowed
  · have := (State.push_ok_iff (t := (s.store (s.sp - 1) s.pc).setSp (s.sp - 1))).2 ⟨h, rfl⟩
    simp [State.enterInterrupt, this, h, bind, Except.bind, pure, Except.pure, eq_comm]
  · have := (State.push_error_iff (v := s.pc) (e := .stackOverflow (s.sp - 1))).2 ⟨h, rfl⟩
    simp [State.enterInterrupt, this, h, bind, Except.bind]

/-- An interrupt entry that raises, raises the `StackOverflow` of its push. -/
theorem State.enterInterrupt_error_iff {s : State} {i : Source} {e : Fault} :
    s.enterInterrupt i = .error e ↔ ¬ s.PushAllowed ∧ e = .stackOverflow (s.sp - 1) := by
  by_cases h : s.PushAllowed
  · have := (State.push_ok_iff (t := (s.store (s.sp - 1) s.pc).setSp (s.sp - 1))).2 ⟨h, rfl⟩
    simp [State.enterInterrupt, this, h, bind, Except.bind, pure, Except.pure]
  · have := (State.push_error_iff (v := s.pc) (e := .stackOverflow (s.sp - 1))).2 ⟨h, rfl⟩
    simp [State.enterInterrupt, this, h, bind, Except.bind, eq_comm]

/-- A due source has IEF set, its request latched and its enable bit set. -/
theorem State.dueSource_some {s : State} {i : Source} (h : s.dueSource = some i) :
    s.flags.ief = true ∧ s.req.get i = true ∧ s.sourceEnabled i = true := by
  unfold State.dueSource at h
  split at h
  · have := List.find?_some h
    simp_all
  · cases h

/-- A return from an interrupt that answers. -/
theorem State.returnFromInterrupt_ok_iff {s t : State} :
    s.returnFromInterrupt = .ok t ↔
      s.Readable s.sp ∧ t = ((s.setSp (s.sp + 1)).setPc (s.busValue s.sp)).setIef true := by
  by_cases h : s.Readable s.sp
  · have := (State.pop_ok_iff (t := s.setSp (s.sp + 1))).2 ⟨h, rfl, rfl⟩
    simp [State.returnFromInterrupt, this, h, bind, Except.bind, pure, Except.pure, eq_comm]
  · have := (State.pop_error_iff).2 ⟨h, rfl⟩
    simp [State.returnFromInterrupt, this, h, bind, Except.bind]

end Sys2Proof.Machine
end

