-- ==== Sys2Proof/Laws/Micro.lean ====
section
/-! SUPPORT. For each operation of the M-level's commit half, and for the assembler's cursor, one lemma that says what it can
do. -/

namespace Sys2Proof.Machine

/-! ### The commit half -/

/-- A HALT bit changes the run state and nothing else. -/
theorem commitHalt_eq (halt : Bool) (s : State) :
    commitHalt halt s = { s with run := if halt = true then .stopped else s.run } := by
  cases halt <;> rfl

@[simp] theorem commitHalt_false (s : State) : commitHalt false s = s := rfl

@[simp] theorem commitHalt_true (s : State) : commitHalt true s = s.setRun .stopped := rfl

@[simp] theorem commitHalt_micro (halt : Bool) (s : State) : (commitHalt halt s).micro = s.micro := by
  rw [commitHalt_eq]

@[simp] theorem commitHalt_run (halt : Bool) (s : State) :
    (commitHalt halt s).run = if halt = true then .stopped else s.run := by rw [commitHalt_eq]

/-- A completed bus write of the commit half: none, or one that is not refused. -/
theorem commitBus_ok_iff {w : ControlWord} {s t : State} :
    commitBus w s = .ok t ↔
      if w.busen = true ∧ w.buswr = true then
        s.boot.writeCheck s.micro.ra (microWriteKind s.micro.ia) = none ∧ t = s.store s.micro.ra s.micro.f
      else t = s := by
  unfold commitBus
  split
  · simp_all [State.busWrite_ok_iff]
  · simp_all [@eq_comm State s t]

/-- A commit half with an opcode fetch completes in one of two ways: the entry of a due interrupt, or the fetch of a valid
opcode at a readable PC. -/
theorem commitFetch_ok_cases {p : MicroParams} {slice : BitVec 2} {s t : State} (h : commitFetch p slice s = .ok t) :
    (∃ i, s.dueSource = some i ∧ s.enterInterrupt i = .ok t) ∨
    (s.dueSource = none ∧ s.Readable s.pc ∧ p.opcodeValid (s.busValue s.pc) = true ∧
      t = ((s.setPc (s.pc + 1)).setOpl (s.busValue s.pc)).setMp
        (microAddress (p.opcEntry (s.busValue s.pc)) slice)) := by
  unfold commitFetch at h
  split at h
  · exact .inl ⟨_, ‹_›, h⟩
  · by_cases hr : s.Readable s.pc
    · rw [State.busRead_of_readable hr] at h
      simp only [bind, Except.bind] at h
      split at h
      · exact .inr ⟨‹_›, hr, ‹_›, (Except.ok.inj h).symm⟩
      · cases h
    · rw [State.busRead_error_iff.2 ⟨hr, rfl⟩] at h
      cases h

/-! ### The assembler's cursor -/

/-- Bytes are emitted exactly where they fit, and the cursor moves past them. -/
theorem Layout.emit_ok_iff {l m : Layout} {n : Nat} {e : Emission} :
    l.emit n e = .ok m ↔ l.cursor + n ≤ Config.ramSize ∧
      m = { l with
        cursor := l.cursor + n, emitted := max l.emitted (l.cursor + n), items := (l.cursor, e) :: l.items } := by
  unfold Layout.emit
  split
  · simp only [reduceCtorEq, false_iff, not_and]; omega
  · simp only [Except.ok.injEq, Nat.not_lt.1 ‹_›, true_and]; exact eq_comm

/-- `.ORG` moves the cursor exactly where no byte at or above it has been emitted. -/
theorem Layout.place_org_ok_iff {l m : Layout} {n : Nat} :
    l.place (.org n) = .ok m ↔ l.emitted ≤ n ∧ m = { l with cursor := n } := by
  show (if n < l.emitted then _ else _) = _ ↔ _
  split
  · simp only [reduceCtorEq, false_iff, not_and]; omega
  · simp only [Except.ok.injEq, Nat.not_lt.1 ‹_›, true_and]; exact eq_comm

end Sys2Proof.Machine
end

