-- ==== Sys2Proof/Laws/Operands.lean ====
section
/-! SUPPORT. The operand forms and the shared bodies: what each does when it answers. -/

namespace Sys2Proof.Machine

/-- A place that a read raises no error for. -/
def State.PlaceReadable (s : State) : Place → Prop
  | .reg _ => True
  | .mem a => s.Readable a

/-- A place that a write raises no error for. -/
def State.PlaceWritable (s : State) : Place → Prop
  | .reg _ => True
  | .mem a => s.Writable a

/-- An operand that a read raises no error for. -/
def State.OperandReadable (s : State) : Operand → Prop
  | .place p => s.PlaceReadable p
  | .imm _ => True

/-- The value of a place. -/
def State.placeValue (s : State) : Place → Byte
  | .reg r => s.reg r
  | .mem a => s.busValue a

/-- The value of an operand. -/
def State.operandValue (s : State) : Operand → Byte
  | .place p => s.placeValue p
  | .imm n => n

/-- The state after a place takes a byte. -/
def State.putPlace (s : State) (p : Place) (v : Byte) : State :=
  match p with
  | .reg r => s.setReg r v
  | .mem a => s.store a v

theorem State.readPlace_ok_iff {s : State} {p : Place} {v : Byte} :
    s.readPlace p = .ok v ↔ s.PlaceReadable p ∧ v = s.placeValue p := by
  cases p with
  | reg r => simp only [readPlace, PlaceReadable, placeValue, Except.ok.injEq, true_and]; exact eq_comm
  | mem a => exact State.busRead_ok_iff

theorem State.readOperand_ok_iff {s : State} {o : Operand} {v : Byte} :
    s.readOperand o = .ok v ↔ s.OperandReadable o ∧ v = s.operandValue o := by
  cases o with
  | place p => exact State.readPlace_ok_iff
  | imm n => simp only [readOperand, OperandReadable, operandValue, Except.ok.injEq, true_and]; exact eq_comm

theorem State.writePlace_ok_iff {s t : State} {p : Place} {v : Byte} :
    s.writePlace p v = .ok t ↔ s.PlaceWritable p ∧ t = s.putPlace p v := by
  cases p with
  | reg r => simp only [writePlace, PlaceWritable, putPlace, Except.ok.injEq, true_and]; exact eq_comm
  | mem a => exact State.busWrite_ok_iff

/-- An error in a chain is the error of its first part, or of the second at the first's answer. -/
theorem except_bind_eq_ok {ε α β : Type} {x : Except ε α} {g : α → Except ε β} {b : β} :
    (x >>= g) = .ok b ↔ ∃ a, x = .ok a ∧ g a = .ok b := by
  cases x <;> simp [bind, Except.bind]

theorem except_bind_eq_error {ε α β : Type} {x : Except ε α} {g : α → Except ε β} {e : ε} :
    (x >>= g) = .error e ↔ x = .error e ∨ ∃ a, x = .ok a ∧ g a = .error e := by
  cases x <;> simp [bind, Except.bind]

/-- The end of an ALU or bit instruction, when it answers. -/
theorem State.finish_ok_iff {s t : State} {p : Place} {wb : Bool} {r : AluOut} :
    s.finish p wb r = .ok t ↔
      (wb = true → s.PlaceWritable p) ∧ t = (if wb then s.putPlace p r.f else s).commitFlags r := by
  unfold State.finish
  cases wb with
  | false =>
    simp only [Bool.false_eq_true, if_false, except_bind_eq_ok, Except.ok.injEq, exists_eq_left', pure, Except.pure,
      false_implies, true_and]
    exact eq_comm
  | true =>
    simp only [if_true, except_bind_eq_ok, State.writePlace_ok_iff, pure, Except.pure, Except.ok.injEq, true_implies]
    constructor
    · rintro ⟨a, ⟨h, rfl⟩, rfl⟩; exact ⟨h, rfl⟩
    · rintro ⟨h, rfl⟩; exact ⟨_, ⟨h, rfl⟩, rfl⟩

/-- A two-operand body, when it answers. -/
theorem twoOp_ok_iff {fn : AluFn} {useCf wb : Bool} {dst : Place} {src : Operand} {s t : State} :
    twoOp fn useCf wb dst src s = .ok t ↔
      s.PlaceReadable dst ∧ s.OperandReadable src ∧ (wb = true → s.PlaceWritable dst) ∧
        t = (if wb then
              s.putPlace dst (alu fn (s.placeValue dst) (s.operandValue src) (useCf && s.flags.cf)).f else s).commitFlags
              (alu fn (s.placeValue dst) (s.operandValue src) (useCf && s.flags.cf)) := by
  unfold twoOp
  simp only [except_bind_eq_ok, State.readPlace_ok_iff, State.readOperand_ok_iff, State.finish_ok_iff]
  constructor
  · rintro ⟨a, ⟨ha, rfl⟩, b, ⟨hb, rfl⟩, hw, rfl⟩; exact ⟨ha, hb, hw, rfl⟩
  · rintro ⟨ha, hb, hw, rfl⟩; exact ⟨_, ⟨ha, rfl⟩, _, ⟨hb, rfl⟩, hw, rfl⟩

/-- A one-operand body, when it answers; `rd` says whether the operand is read. -/
theorem oneOp_ok_iff {fn : AluFn} {rd wb : Bool} {p : Place} {s t : State} :
    oneOp fn rd wb p s = .ok t ↔
      (rd = true → s.PlaceReadable p) ∧ (wb = true → s.PlaceWritable p) ∧
        t = (if wb then s.putPlace p (alu fn (if rd then s.placeValue p else 0#8) 0#8 false).f else s).commitFlags
              (alu fn (if rd then s.placeValue p else 0#8) 0#8 false) := by
  unfold oneOp
  cases rd with
  | false => simp [except_bind_eq_ok, State.finish_ok_iff]
  | true =>
    simp only [if_true, except_bind_eq_ok, State.readPlace_ok_iff, State.finish_ok_iff, true_implies]
    constructor
    · rintro ⟨a, ⟨ha, rfl⟩, hw, rfl⟩; exact ⟨ha, hw, rfl⟩
    · rintro ⟨ha, hw, rfl⟩; exact ⟨_, ⟨ha, rfl⟩, hw, rfl⟩

/-- A bit body, when it answers. -/
theorem bitOp_ok_iff {fn : BitFn} {wb : Bool} {p : Place} {m : Byte} {s t : State} :
    bitOp fn wb p m s = .ok t ↔
      s.PlaceReadable p ∧ (wb = true → s.PlaceWritable p) ∧
        t = (if wb then s.putPlace p (bitResult fn (s.placeValue p) m).f else s).commitFlags
              (bitResult fn (s.placeValue p) m) := by
  unfold bitOp
  simp only [except_bind_eq_ok, State.readPlace_ok_iff, State.finish_ok_iff]
  constructor
  · rintro ⟨a, ⟨ha, rfl⟩, hw, rfl⟩; exact ⟨ha, hw, rfl⟩
  · rintro ⟨ha, hw, rfl⟩; exact ⟨_, ⟨ha, rfl⟩, hw, rfl⟩

/-- A move, when it answers. -/
theorem moveOp_ok_iff {dst : Place} {src : Operand} {s t : State} :
    moveOp dst src s = .ok t ↔
      s.OperandReadable src ∧ s.PlaceWritable dst ∧ t = s.putPlace dst (s.operandValue src) := by
  unfold moveOp
  simp only [except_bind_eq_ok, State.readOperand_ok_iff, State.writePlace_ok_iff]
  constructor
  · rintro ⟨a, ⟨ha, rfl⟩, hw, rfl⟩; exact ⟨ha, hw, rfl⟩
  · rintro ⟨ha, hw, rfl⟩; exact ⟨_, ⟨ha, rfl⟩, hw, rfl⟩

/-- A call, when it answers. -/
theorem callOp_ok_iff {a : Byte} {s t : State} :
    callOp a s = .ok t ↔ s.PushAllowed ∧ t = ((s.store (s.sp - 1) s.pc).setSp (s.sp - 1)).setPc a := by
  unfold callOp
  simp only [except_bind_eq_ok, State.push_ok_iff, pure, Except.pure, Except.ok.injEq]
  constructor
  · rintro ⟨u, ⟨h, rfl⟩, rfl⟩; exact ⟨h, rfl⟩
  · rintro ⟨h, rfl⟩; exact ⟨_, ⟨h, rfl⟩, rfl⟩

/-- A return, when it answers. -/
theorem returnOp_ok_iff {s t : State} :
    returnOp s = .ok t ↔ s.Readable s.sp ∧ t = (s.setSp (s.sp + 1)).setPc (s.busValue s.sp) := by
  unfold returnOp
  simp only [except_bind_eq_ok, pure, Except.pure, Except.ok.injEq, Prod.exists, State.pop_ok_iff]
  constructor
  · rintro ⟨v, u, ⟨h, rfl, rfl⟩, rfl⟩; exact ⟨h, rfl⟩
  · rintro ⟨h, rfl⟩; exact ⟨_, _, ⟨h, rfl, rfl⟩, rfl⟩

/-- The flag outputs of 40_datapath.md R144, as a commit stores them. -/
theorem State.commitFlags_eq (s : State) (r : AluOut) : s.commitFlags r = s.setResultFlags r.f r.c := by
  have hz : zeroFlag r.f = decide (r.f = 0#8) := rfl
  have hn : negFlag r.f = decide (128 ≤ r.f.toNat) := by
    have : ∀ v : Byte, negFlag v = decide (128 ≤ v.toNat) := by decide
    exact this r.f
  unfold State.commitFlags State.setResultFlags Flags.commit
  rw [hz, hn]

/-! ### What each raises -/

/-- A refused data write is an `OutOfBoundsWrite`. -/
theorem State.writeCheck_of_not_writable {s : State} {a : Byte} (h : ¬ s.Writable a) :
    s.boot.writeCheck a .data = some (.outOfBoundsWrite a) :=
  (s.boot.writeCheck_data a).resolve_left h

theorem State.readPlace_error_iff {s : State} {p : Place} {e : Fault} :
    s.readPlace p = .error e ↔ ∃ a, p = .mem a ∧ ¬ s.Readable a ∧ e = .undefinedInput a := by
  cases p with
  | reg r => simp [State.readPlace]
  | mem a => simp [State.readPlace, State.busRead_error_iff]

theorem State.readOperand_error_iff {s : State} {o : Operand} {e : Fault} :
    s.readOperand o = .error e ↔ ∃ a, o = .place (.mem a) ∧ ¬ s.Readable a ∧ e = .undefinedInput a := by
  cases o with
  | place p => simp [State.readOperand, State.readPlace_error_iff]
  | imm n => simp [State.readOperand]

theorem State.writePlace_error_iff {s : State} {p : Place} {v : Byte} {e : Fault} :
    s.writePlace p v = .error e ↔ ∃ a, p = .mem a ∧ ¬ s.Writable a ∧ e = .outOfBoundsWrite a := by
  cases p with
  | reg r => simp [State.writePlace]
  | mem a =>
    simp only [State.writePlace, State.busWrite_error_iff, Place.mem.injEq, exists_eq_left']
    constructor
    · intro h
      have hw : ¬ s.Writable a := by simp [State.Writable, h]
      rw [State.writeCheck_of_not_writable hw] at h
      exact ⟨hw, (Option.some.inj h).symm⟩
    · rintro ⟨hw, rfl⟩; exact State.writeCheck_of_not_writable hw

/-- The end of an ALU or bit instruction raises exactly what its write raises. -/
theorem State.finish_error_iff {s : State} {p : Place} {wb : Bool} {r : AluOut} {e : Fault} :
    s.finish p wb r = .error e ↔ wb = true ∧ ∃ a, p = .mem a ∧ ¬ s.Writable a ∧ e = .outOfBoundsWrite a := by
  unfold State.finish
  cases wb <;> simp [except_bind_eq_error, State.writePlace_error_iff, pure, Except.pure]

/-- A two-operand body raises what its first access with an error raises. -/
theorem twoOp_error_iff {fn : AluFn} {useCf wb : Bool} {dst : Place} {src : Operand} {s : State} {e : Fault} :
    twoOp fn useCf wb dst src s = .error e ↔
      s.readPlace dst = .error e ∨
        s.PlaceReadable dst ∧ (s.readOperand src = .error e ∨
          s.OperandReadable src ∧ wb = true ∧ ∃ a, dst = .mem a ∧ ¬ s.Writable a ∧ e = .outOfBoundsWrite a) := by
  unfold twoOp
  simp only [except_bind_eq_error, State.readPlace_ok_iff, State.readOperand_ok_iff, State.finish_error_iff]
  constructor
  · rintro (h | ⟨_, ⟨ha, -⟩, h | ⟨_, ⟨hb, -⟩, h⟩⟩)
    exacts [.inl h, .inr ⟨ha, .inl h⟩, .inr ⟨ha, .inr ⟨hb, h⟩⟩]
  · rintro (h | ⟨ha, h | ⟨hb, h⟩⟩)
    exacts [.inl h, .inr ⟨_, ⟨ha, rfl⟩, .inl h⟩, .inr ⟨_, ⟨ha, rfl⟩, .inr ⟨_, ⟨hb, rfl⟩, h⟩⟩]

/-- A one-operand body raises what its first access with an error raises. -/
theorem oneOp_error_iff {fn : AluFn} {rd wb : Bool} {p : Place} {s : State} {e : Fault} :
    oneOp fn rd wb p s = .error e ↔
      rd = true ∧ s.readPlace p = .error e ∨
        (rd = true → s.PlaceReadable p) ∧ wb = true ∧
          ∃ a, p = .mem a ∧ ¬ s.Writable a ∧ e = .outOfBoundsWrite a := by
  unfold oneOp
  cases rd with
  | false => simp [except_bind_eq_error, State.finish_error_iff]
  | true =>
    simp only [if_true, except_bind_eq_error, State.readPlace_ok_iff, State.finish_error_iff, true_implies, true_and]
    constructor
    · rintro (h | ⟨_, ⟨ha, -⟩, h⟩)
      exacts [.inl h, .inr ⟨ha, h⟩]
    · rintro (h | ⟨ha, h⟩)
      exacts [.inl h, .inr ⟨_, ⟨ha, rfl⟩, h⟩]

/-- A bit body raises what its first access with an error raises. -/
theorem bitOp_error_iff {fn : BitFn} {wb : Bool} {p : Place} {m : Byte} {s : State} {e : Fault} :
    bitOp fn wb p m s = .error e ↔
      s.readPlace p = .error e ∨
        s.PlaceReadable p ∧ wb = true ∧ ∃ a, p = .mem a ∧ ¬ s.Writable a ∧ e = .outOfBoundsWrite a := by
  unfold bitOp
  simp only [except_bind_eq_error, State.readPlace_ok_iff, State.finish_error_iff]
  constructor
  · rintro (h | ⟨_, ⟨ha, -⟩, h⟩)
    exacts [.inl h, .inr ⟨ha, h⟩]
  · rintro (h | ⟨ha, h⟩)
    exacts [.inl h, .inr ⟨_, ⟨ha, rfl⟩, h⟩]

/-- A move raises what its first access with an error raises. -/
theorem moveOp_error_iff {dst : Place} {src : Operand} {s : State} {e : Fault} :
    moveOp dst src s = .error e ↔
      s.readOperand src = .error e ∨
        s.OperandReadable src ∧ ∃ a, dst = .mem a ∧ ¬ s.Writable a ∧ e = .outOfBoundsWrite a := by
  unfold moveOp
  simp only [except_bind_eq_error, State.readOperand_ok_iff, State.writePlace_error_iff]
  constructor
  · rintro (h | ⟨_, ⟨ha, -⟩, h⟩)
    exacts [.inl h, .inr ⟨ha, h⟩]
  · rintro (h | ⟨ha, h⟩)
    exacts [.inl h, .inr ⟨_, ⟨ha, rfl⟩, h⟩]

theorem callOp_error_iff {a : Byte} {s : State} {e : Fault} :
    callOp a s = .error e ↔ ¬ s.PushAllowed ∧ e = .stackOverflow (s.sp - 1) := by
  unfold callOp
  simp [except_bind_eq_error, State.push_error_iff, pure, Except.pure]

theorem returnOp_error_iff {s : State} {e : Fault} :
    returnOp s = .error e ↔ ¬ s.Readable s.sp ∧ e = .undefinedInput s.sp := by
  unfold returnOp
  simp [except_bind_eq_error, State.pop_error_iff, pure, Except.pure]

theorem State.returnFromInterrupt_error_iff {s : State} {e : Fault} :
    s.returnFromInterrupt = .error e ↔ ¬ s.Readable s.sp ∧ e = .undefinedInput s.sp := by
  unfold State.returnFromInterrupt
  simp [except_bind_eq_error, State.pop_error_iff, pure, Except.pure]

end Sys2Proof.Machine
end

