-- ==== Sys2Proof/Laws/PerInstr.lean ====
section
/-! SUPPORT. Facts about every instruction, one lemma for each constructor. -/

namespace Sys2Proof.Laws

/-- An instruction's encoding has its length, and the decoder reads that length from byte 0 (30_encoding.md R114). -/
def EncodeLength.Statement (i : Instr) : Prop :=
  (encode i).length = i.length ∧ opcodeLength ((encode i).headD 0) = some i.length

theorem EncodeLength.nop : EncodeLength.Statement (.nop) := ⟨rfl, by decide⟩
theorem EncodeLength.stop : EncodeLength.Statement (.stop) := ⟨rfl, by decide⟩
theorem EncodeLength.ei : EncodeLength.Statement (.ei) := ⟨rfl, by decide⟩
theorem EncodeLength.di : EncodeLength.Statement (.di) := ⟨rfl, by decide⟩
theorem EncodeLength.ret : EncodeLength.Statement (.ret) := ⟨rfl, by decide⟩
theorem EncodeLength.reti : EncodeLength.Statement (.reti) := ⟨rfl, by decide⟩
theorem EncodeLength.jr (t : Byte) : EncodeLength.Statement (.jr t) := ⟨rfl, (by decide : opcodeLength ((encode (.jr 0)).headD 0) = some 2)⟩
theorem EncodeLength.jzs (t : Byte) : EncodeLength.Statement (.jzs t) := ⟨rfl, (by decide : opcodeLength ((encode (.jzs 0)).headD 0) = some 2)⟩
theorem EncodeLength.jzc (t : Byte) : EncodeLength.Statement (.jzc t) := ⟨rfl, (by decide : opcodeLength ((encode (.jzc 0)).headD 0) = some 2)⟩
theorem EncodeLength.jcs (t : Byte) : EncodeLength.Statement (.jcs t) := ⟨rfl, (by decide : opcodeLength ((encode (.jcs 0)).headD 0) = some 2)⟩
theorem EncodeLength.jcc (t : Byte) : EncodeLength.Statement (.jcc t) := ⟨rfl, (by decide : opcodeLength ((encode (.jcc 0)).headD 0) = some 2)⟩
theorem EncodeLength.jns (t : Byte) : EncodeLength.Statement (.jns t) := ⟨rfl, (by decide : opcodeLength ((encode (.jns 0)).headD 0) = some 2)⟩
theorem EncodeLength.jnc (t : Byte) : EncodeLength.Statement (.jnc t) := ⟨rfl, (by decide : opcodeLength ((encode (.jnc 0)).headD 0) = some 2)⟩
theorem EncodeLength.call (t : Byte) : EncodeLength.Statement (.call t) := ⟨rfl, (by decide : opcodeLength ((encode (.call 0)).headD 0) = some 2)⟩
theorem EncodeLength.ldsp (n : Byte) : EncodeLength.Statement (.ldsp n) := ⟨rfl, (by decide : opcodeLength ((encode (.ldsp 0)).headD 0) = some 2)⟩
theorem EncodeLength.bitsR (r : Reg) (m : Byte) : EncodeLength.Statement (.bitsR r m) := by cases r <;> exact ⟨rfl, rfl⟩
theorem EncodeLength.bitsM (a m : Byte) : EncodeLength.Statement (.bitsM a m) := ⟨rfl, (by decide : opcodeLength ((encode (.bitsM 0 0)).headD 0) = some 3)⟩
theorem EncodeLength.bitcR (r : Reg) (m : Byte) : EncodeLength.Statement (.bitcR r m) := by cases r <;> exact ⟨rfl, rfl⟩
theorem EncodeLength.bitcM (a m : Byte) : EncodeLength.Statement (.bitcM a m) := ⟨rfl, (by decide : opcodeLength ((encode (.bitcM 0 0)).headD 0) = some 3)⟩
theorem EncodeLength.bittR (r : Reg) (m : Byte) : EncodeLength.Statement (.bittR r m) := by cases r <;> exact ⟨rfl, rfl⟩
theorem EncodeLength.bittM (a m : Byte) : EncodeLength.Statement (.bittM a m) := ⟨rfl, (by decide : opcodeLength ((encode (.bittM 0 0)).headD 0) = some 3)⟩
theorem EncodeLength.incR (r : Reg) : EncodeLength.Statement (.incR r) := by cases r <;> exact ⟨rfl, rfl⟩
theorem EncodeLength.incM (a : Byte) : EncodeLength.Statement (.incM a) := ⟨rfl, (by decide : opcodeLength ((encode (.incM 0)).headD 0) = some 2)⟩
theorem EncodeLength.decR (r : Reg) : EncodeLength.Statement (.decR r) := by cases r <;> exact ⟨rfl, rfl⟩
theorem EncodeLength.decM (a : Byte) : EncodeLength.Statement (.decM a) := ⟨rfl, (by decide : opcodeLength ((encode (.decM 0)).headD 0) = some 2)⟩
theorem EncodeLength.clrR (r : Reg) : EncodeLength.Statement (.clrR r) := by cases r <;> exact ⟨rfl, rfl⟩
theorem EncodeLength.clrM (a : Byte) : EncodeLength.Statement (.clrM a) := ⟨rfl, (by decide : opcodeLength ((encode (.clrM 0)).headD 0) = some 2)⟩
theorem EncodeLength.notR (r : Reg) : EncodeLength.Statement (.notR r) := by cases r <;> exact ⟨rfl, rfl⟩
theorem EncodeLength.notM (a : Byte) : EncodeLength.Statement (.notM a) := ⟨rfl, (by decide : opcodeLength ((encode (.notM 0)).headD 0) = some 2)⟩
theorem EncodeLength.shlR (r : Reg) : EncodeLength.Statement (.shlR r) := by cases r <;> exact ⟨rfl, rfl⟩
theorem EncodeLength.shlM (a : Byte) : EncodeLength.Statement (.shlM a) := ⟨rfl, (by decide : opcodeLength ((encode (.shlM 0)).headD 0) = some 2)⟩
theorem EncodeLength.shrR (r : Reg) : EncodeLength.Statement (.shrR r) := by cases r <;> exact ⟨rfl, rfl⟩
theorem EncodeLength.shrM (a : Byte) : EncodeLength.Statement (.shrM a) := ⟨rfl, (by decide : opcodeLength ((encode (.shrM 0)).headD 0) = some 2)⟩
theorem EncodeLength.asrR (r : Reg) : EncodeLength.Statement (.asrR r) := by cases r <;> exact ⟨rfl, rfl⟩
theorem EncodeLength.asrM (a : Byte) : EncodeLength.Statement (.asrM a) := ⟨rfl, (by decide : opcodeLength ((encode (.asrM 0)).headD 0) = some 2)⟩
theorem EncodeLength.tstR (r : Reg) : EncodeLength.Statement (.tstR r) := by cases r <;> exact ⟨rfl, rfl⟩
theorem EncodeLength.tstM (a : Byte) : EncodeLength.Statement (.tstM a) := ⟨rfl, (by decide : opcodeLength ((encode (.tstM 0)).headD 0) = some 2)⟩
theorem EncodeLength.movRR (d r : Reg) : EncodeLength.Statement (.movRR d r) := ⟨rfl, (by decide : opcodeLength ((encode (.movRR .r0 .r0)).headD 0) = some 2)⟩
theorem EncodeLength.movRI (d : Reg) (n : Byte) : EncodeLength.Statement (.movRI d n) := ⟨rfl, (by decide : opcodeLength ((encode (.movRI .r0 0)).headD 0) = some 3)⟩
theorem EncodeLength.movRM (d : Reg) (a : Byte) : EncodeLength.Statement (.movRM d a) := ⟨rfl, (by decide : opcodeLength ((encode (.movRM .r0 0)).headD 0) = some 3)⟩
theorem EncodeLength.movMR (a : Byte) (r : Reg) : EncodeLength.Statement (.movMR a r) := ⟨rfl, (by decide : opcodeLength ((encode (.movMR 0 .r0)).headD 0) = some 3)⟩
theorem EncodeLength.movMM (a b : Byte) : EncodeLength.Statement (.movMM a b) := ⟨rfl, (by decide : opcodeLength ((encode (.movMM 0 0)).headD 0) = some 3)⟩
theorem EncodeLength.movMI (a n : Byte) : EncodeLength.Statement (.movMI a n) := ⟨rfl, (by decide : opcodeLength ((encode (.movMI 0 0)).headD 0) = some 3)⟩
theorem EncodeLength.addRR (d r : Reg) : EncodeLength.Statement (.addRR d r) := ⟨rfl, (by decide : opcodeLength ((encode (.addRR .r0 .r0)).headD 0) = some 2)⟩
theorem EncodeLength.addRI (d : Reg) (n : Byte) : EncodeLength.Statement (.addRI d n) := ⟨rfl, (by decide : opcodeLength ((encode (.addRI .r0 0)).headD 0) = some 3)⟩
theorem EncodeLength.addRM (d : Reg) (a : Byte) : EncodeLength.Statement (.addRM d a) := ⟨rfl, (by decide : opcodeLength ((encode (.addRM .r0 0)).headD 0) = some 3)⟩
theorem EncodeLength.addMR (a : Byte) (r : Reg) : EncodeLength.Statement (.addMR a r) := ⟨rfl, (by decide : opcodeLength ((encode (.addMR 0 .r0)).headD 0) = some 3)⟩
theorem EncodeLength.addMM (a b : Byte) : EncodeLength.Statement (.addMM a b) := ⟨rfl, (by decide : opcodeLength ((encode (.addMM 0 0)).headD 0) = some 3)⟩
theorem EncodeLength.addMI (a n : Byte) : EncodeLength.Statement (.addMI a n) := ⟨rfl, (by decide : opcodeLength ((encode (.addMI 0 0)).headD 0) = some 3)⟩
theorem EncodeLength.adcRR (d r : Reg) : EncodeLength.Statement (.adcRR d r) := ⟨rfl, (by decide : opcodeLength ((encode (.adcRR .r0 .r0)).headD 0) = some 2)⟩
theorem EncodeLength.adcRI (d : Reg) (n : Byte) : EncodeLength.Statement (.adcRI d n) := ⟨rfl, (by decide : opcodeLength ((encode (.adcRI .r0 0)).headD 0) = some 3)⟩
theorem EncodeLength.adcRM (d : Reg) (a : Byte) : EncodeLength.Statement (.adcRM d a) := ⟨rfl, (by decide : opcodeLength ((encode (.adcRM .r0 0)).headD 0) = some 3)⟩
theorem EncodeLength.adcMR (a : Byte) (r : Reg) : EncodeLength.Statement (.adcMR a r) := ⟨rfl, (by decide : opcodeLength ((encode (.adcMR 0 .r0)).headD 0) = some 3)⟩
theorem EncodeLength.adcMM (a b : Byte) : EncodeLength.Statement (.adcMM a b) := ⟨rfl, (by decide : opcodeLength ((encode (.adcMM 0 0)).headD 0) = some 3)⟩
theorem EncodeLength.adcMI (a n : Byte) : EncodeLength.Statement (.adcMI a n) := ⟨rfl, (by decide : opcodeLength ((encode (.adcMI 0 0)).headD 0) = some 3)⟩
theorem EncodeLength.subRR (d r : Reg) : EncodeLength.Statement (.subRR d r) := ⟨rfl, (by decide : opcodeLength ((encode (.subRR .r0 .r0)).headD 0) = some 2)⟩
theorem EncodeLength.subRI (d : Reg) (n : Byte) : EncodeLength.Statement (.subRI d n) := ⟨rfl, (by decide : opcodeLength ((encode (.subRI .r0 0)).headD 0) = some 3)⟩
theorem EncodeLength.subRM (d : Reg) (a : Byte) : EncodeLength.Statement (.subRM d a) := ⟨rfl, (by decide : opcodeLength ((encode (.subRM .r0 0)).headD 0) = some 3)⟩
theorem EncodeLength.subMR (a : Byte) (r : Reg) : EncodeLength.Statement (.subMR a r) := ⟨rfl, (by decide : opcodeLength ((encode (.subMR 0 .r0)).headD 0) = some 3)⟩
theorem EncodeLength.subMM (a b : Byte) : EncodeLength.Statement (.subMM a b) := ⟨rfl, (by decide : opcodeLength ((encode (.subMM 0 0)).headD 0) = some 3)⟩
theorem EncodeLength.subMI (a n : Byte) : EncodeLength.Statement (.subMI a n) := ⟨rfl, (by decide : opcodeLength ((encode (.subMI 0 0)).headD 0) = some 3)⟩
theorem EncodeLength.sbcRR (d r : Reg) : EncodeLength.Statement (.sbcRR d r) := ⟨rfl, (by decide : opcodeLength ((encode (.sbcRR .r0 .r0)).headD 0) = some 2)⟩
theorem EncodeLength.sbcRI (d : Reg) (n : Byte) : EncodeLength.Statement (.sbcRI d n) := ⟨rfl, (by decide : opcodeLength ((encode (.sbcRI .r0 0)).headD 0) = some 3)⟩
theorem EncodeLength.sbcRM (d : Reg) (a : Byte) : EncodeLength.Statement (.sbcRM d a) := ⟨rfl, (by decide : opcodeLength ((encode (.sbcRM .r0 0)).headD 0) = some 3)⟩
theorem EncodeLength.sbcMR (a : Byte) (r : Reg) : EncodeLength.Statement (.sbcMR a r) := ⟨rfl, (by decide : opcodeLength ((encode (.sbcMR 0 .r0)).headD 0) = some 3)⟩
theorem EncodeLength.sbcMM (a b : Byte) : EncodeLength.Statement (.sbcMM a b) := ⟨rfl, (by decide : opcodeLength ((encode (.sbcMM 0 0)).headD 0) = some 3)⟩
theorem EncodeLength.sbcMI (a n : Byte) : EncodeLength.Statement (.sbcMI a n) := ⟨rfl, (by decide : opcodeLength ((encode (.sbcMI 0 0)).headD 0) = some 3)⟩
theorem EncodeLength.andRR (d r : Reg) : EncodeLength.Statement (.andRR d r) := ⟨rfl, (by decide : opcodeLength ((encode (.andRR .r0 .r0)).headD 0) = some 2)⟩
theorem EncodeLength.andRI (d : Reg) (n : Byte) : EncodeLength.Statement (.andRI d n) := ⟨rfl, (by decide : opcodeLength ((encode (.andRI .r0 0)).headD 0) = some 3)⟩
theorem EncodeLength.andRM (d : Reg) (a : Byte) : EncodeLength.Statement (.andRM d a) := ⟨rfl, (by decide : opcodeLength ((encode (.andRM .r0 0)).headD 0) = some 3)⟩
theorem EncodeLength.andMR (a : Byte) (r : Reg) : EncodeLength.Statement (.andMR a r) := ⟨rfl, (by decide : opcodeLength ((encode (.andMR 0 .r0)).headD 0) = some 3)⟩
theorem EncodeLength.andMM (a b : Byte) : EncodeLength.Statement (.andMM a b) := ⟨rfl, (by decide : opcodeLength ((encode (.andMM 0 0)).headD 0) = some 3)⟩
theorem EncodeLength.andMI (a n : Byte) : EncodeLength.Statement (.andMI a n) := ⟨rfl, (by decide : opcodeLength ((encode (.andMI 0 0)).headD 0) = some 3)⟩
theorem EncodeLength.orRR (d r : Reg) : EncodeLength.Statement (.orRR d r) := ⟨rfl, (by decide : opcodeLength ((encode (.orRR .r0 .r0)).headD 0) = some 2)⟩
theorem EncodeLength.orRI (d : Reg) (n : Byte) : EncodeLength.Statement (.orRI d n) := ⟨rfl, (by decide : opcodeLength ((encode (.orRI .r0 0)).headD 0) = some 3)⟩
theorem EncodeLength.orRM (d : Reg) (a : Byte) : EncodeLength.Statement (.orRM d a) := ⟨rfl, (by decide : opcodeLength ((encode (.orRM .r0 0)).headD 0) = some 3)⟩
theorem EncodeLength.orMR (a : Byte) (r : Reg) : EncodeLength.Statement (.orMR a r) := ⟨rfl, (by decide : opcodeLength ((encode (.orMR 0 .r0)).headD 0) = some 3)⟩
theorem EncodeLength.orMM (a b : Byte) : EncodeLength.Statement (.orMM a b) := ⟨rfl, (by decide : opcodeLength ((encode (.orMM 0 0)).headD 0) = some 3)⟩
theorem EncodeLength.orMI (a n : Byte) : EncodeLength.Statement (.orMI a n) := ⟨rfl, (by decide : opcodeLength ((encode (.orMI 0 0)).headD 0) = some 3)⟩
theorem EncodeLength.xorRR (d r : Reg) : EncodeLength.Statement (.xorRR d r) := ⟨rfl, (by decide : opcodeLength ((encode (.xorRR .r0 .r0)).headD 0) = some 2)⟩
theorem EncodeLength.xorRI (d : Reg) (n : Byte) : EncodeLength.Statement (.xorRI d n) := ⟨rfl, (by decide : opcodeLength ((encode (.xorRI .r0 0)).headD 0) = some 3)⟩
theorem EncodeLength.xorRM (d : Reg) (a : Byte) : EncodeLength.Statement (.xorRM d a) := ⟨rfl, (by decide : opcodeLength ((encode (.xorRM .r0 0)).headD 0) = some 3)⟩
theorem EncodeLength.xorMR (a : Byte) (r : Reg) : EncodeLength.Statement (.xorMR a r) := ⟨rfl, (by decide : opcodeLength ((encode (.xorMR 0 .r0)).headD 0) = some 3)⟩
theorem EncodeLength.xorMM (a b : Byte) : EncodeLength.Statement (.xorMM a b) := ⟨rfl, (by decide : opcodeLength ((encode (.xorMM 0 0)).headD 0) = some 3)⟩
theorem EncodeLength.xorMI (a n : Byte) : EncodeLength.Statement (.xorMI a n) := ⟨rfl, (by decide : opcodeLength ((encode (.xorMI 0 0)).headD 0) = some 3)⟩
theorem EncodeLength.cmpRR (d r : Reg) : EncodeLength.Statement (.cmpRR d r) := ⟨rfl, (by decide : opcodeLength ((encode (.cmpRR .r0 .r0)).headD 0) = some 2)⟩
theorem EncodeLength.cmpRI (d : Reg) (n : Byte) : EncodeLength.Statement (.cmpRI d n) := ⟨rfl, (by decide : opcodeLength ((encode (.cmpRI .r0 0)).headD 0) = some 3)⟩
theorem EncodeLength.cmpRM (d : Reg) (a : Byte) : EncodeLength.Statement (.cmpRM d a) := ⟨rfl, (by decide : opcodeLength ((encode (.cmpRM .r0 0)).headD 0) = some 3)⟩
theorem EncodeLength.cmpMR (a : Byte) (r : Reg) : EncodeLength.Statement (.cmpMR a r) := ⟨rfl, (by decide : opcodeLength ((encode (.cmpMR 0 .r0)).headD 0) = some 3)⟩
theorem EncodeLength.cmpMM (a b : Byte) : EncodeLength.Statement (.cmpMM a b) := ⟨rfl, (by decide : opcodeLength ((encode (.cmpMM 0 0)).headD 0) = some 3)⟩
theorem EncodeLength.cmpMI (a n : Byte) : EncodeLength.Statement (.cmpMI a n) := ⟨rfl, (by decide : opcodeLength ((encode (.cmpMI 0 0)).headD 0) = some 3)⟩
theorem EncodeLength.ld (d : Reg) (a : Byte) : EncodeLength.Statement (.ld d a) := ⟨rfl, (by decide : opcodeLength ((encode (.ld .r0 0)).headD 0) = some 3)⟩
theorem EncodeLength.st (a : Byte) (r : Reg) : EncodeLength.Statement (.st a r) := ⟨rfl, (by decide : opcodeLength ((encode (.st 0 .r0)).headD 0) = some 3)⟩

end Sys2Proof.Laws
end

