-- ==== Sys2Proof/Tests/Slice0.lean ====
section
/-! SUPPORT. Tests. The words are written out bit by bit from spec/opcode_table.json and 30_encoding.md R103; the one-step tests
are vectors of spec/95_test_vectors.md, named by their number there; the witnesses show a state and operands that meet the
hypotheses of a statement of Certificates/Slice0/Obligations.lean. -/

namespace Sys2Proof.Tests

open Sys2Proof.Machine

/-! ### Well-formedness -/

/-- R4..R7 cannot be named, in any operand (30_encoding.md R106). -/
theorem test_illFormed_refused :
    (Instr.incR .r5).wellFormed = false ∧ (Instr.bitsR .r4 1).wellFormed = false ∧
    (Instr.movRR .r0 .r7).wellFormed = false ∧ (Instr.movRR .r6 .r0).wellFormed = false ∧
    (Instr.addRI .r4 0).wellFormed = false ∧ (Instr.cmpMR 0 .r5).wellFormed = false ∧
    (Instr.ld .r4 0).wellFormed = false ∧ (Instr.st 0 .r4).wellFormed = false := by decide

theorem test_wellFormed_accepted :
    (Instr.incR .r3).wellFormed = true ∧ (Instr.movRR .r3 .r0).wellFormed = true ∧ Instr.nop.wellFormed = true ∧
    (Instr.addMM 0xFF 0).wellFormed = true := by decide

/-! ### Decoding: words written out from the spec, the ignored bits x set -/

/-- The bytes decode to the instruction, with nothing left. -/
def decodesTo (bs : List Byte) (i : Instr) : Bool :=
  match decode bs with
  | .ok (j, rest) => decide (j = i ∧ rest = [])
  | .error _ => false

theorem test_decode_Z :
    decodesTo [0b00000000#8] (.nop) = true ∧
    decodesTo [0b00000001#8] (.stop) = true ∧
    decodesTo [0b00000010#8] (.ei) = true ∧
    decodesTo [0b00000011#8] (.di) = true ∧
    decodesTo [0b00000100#8] (.ret) = true ∧
    decodesTo [0b00000101#8] (.reti) = true := by decide

theorem test_decode_J :
    decodesTo [0b00001000#8, 0b11100001#8] (.jr 0xE1) = true ∧
    decodesTo [0b00001001#8, 0b11100001#8] (.jzs 0xE1) = true ∧
    decodesTo [0b00001010#8, 0b11100001#8] (.jzc 0xE1) = true ∧
    decodesTo [0b00001011#8, 0b11100001#8] (.jcs 0xE1) = true ∧
    decodesTo [0b00001100#8, 0b11100001#8] (.jcc 0xE1) = true ∧
    decodesTo [0b00001101#8, 0b11100001#8] (.jns 0xE1) = true ∧
    decodesTo [0b00001110#8, 0b11100001#8] (.jnc 0xE1) = true ∧
    decodesTo [0b00001111#8, 0b11100001#8] (.call 0xE1) = true := by decide

theorem test_decode_L :
    decodesTo [0b00010000#8, 0b11000011#8] (.ldsp 0xC3) = true := by decide

theorem test_decode_BR :
    decodesTo [0b00100011#8, 0b10100101#8] (.bitsR .r3 0xA5) = true ∧
    decodesTo [0b00100111#8, 0b10100101#8] (.bitcR .r3 0xA5) = true ∧
    decodesTo [0b00101011#8, 0b10100101#8] (.bittR .r3 0xA5) = true := by decide

theorem test_decode_BM :
    decodesTo [0b00110000#8, 0b10011100#8, 0b10100101#8] (.bitsM 0x9C 0xA5) = true ∧
    decodesTo [0b00110100#8, 0b10011100#8, 0b10100101#8] (.bitcM 0x9C 0xA5) = true ∧
    decodesTo [0b00111000#8, 0b10011100#8, 0b10100101#8] (.bittM 0x9C 0xA5) = true := by decide

theorem test_decode_UR :
    decodesTo [0b01000011#8] (.incR .r3) = true ∧
    decodesTo [0b01001011#8] (.decR .r3) = true ∧
    decodesTo [0b01010011#8] (.clrR .r3) = true ∧
    decodesTo [0b01011011#8] (.notR .r3) = true ∧
    decodesTo [0b01100011#8] (.shlR .r3) = true ∧
    decodesTo [0b01101011#8] (.shrR .r3) = true ∧
    decodesTo [0b01110011#8] (.asrR .r3) = true ∧
    decodesTo [0b01111011#8] (.tstR .r3) = true := by decide

theorem test_decode_UM :
    decodesTo [0b01000100#8, 0b10011100#8] (.incM 0x9C) = true ∧
    decodesTo [0b01001100#8, 0b10011100#8] (.decM 0x9C) = true ∧
    decodesTo [0b01010100#8, 0b10011100#8] (.clrM 0x9C) = true ∧
    decodesTo [0b01011100#8, 0b10011100#8] (.notM 0x9C) = true ∧
    decodesTo [0b01100100#8, 0b10011100#8] (.shlM 0x9C) = true ∧
    decodesTo [0b01101100#8, 0b10011100#8] (.shrM 0x9C) = true ∧
    decodesTo [0b01110100#8, 0b10011100#8] (.asrM 0x9C) = true ∧
    decodesTo [0b01111100#8, 0b10011100#8] (.tstM 0x9C) = true := by decide

theorem test_decode_mov :
    decodesTo [0b10000000#8, 0b11110110#8] (.movRR .r1 .r2) = true ∧
    decodesTo [0b10000001#8, 0b11111101#8, 0b11000011#8] (.movRI .r1 0xC3) = true ∧
    decodesTo [0b10000010#8, 0b11111101#8, 0b10011100#8] (.movRM .r1 0x9C) = true ∧
    decodesTo [0b10000011#8, 0b10011100#8, 0b11111110#8] (.movMR 0x9C .r2) = true ∧
    decodesTo [0b10000100#8, 0b10011100#8, 0b01101111#8] (.movMM 0x9C 0x6F) = true ∧
    decodesTo [0b10000101#8, 0b10011100#8, 0b11000011#8] (.movMI 0x9C 0xC3) = true := by decide

theorem test_decode_add :
    decodesTo [0b10001000#8, 0b11110110#8] (.addRR .r1 .r2) = true ∧
    decodesTo [0b10001001#8, 0b11111101#8, 0b11000011#8] (.addRI .r1 0xC3) = true ∧
    decodesTo [0b10001010#8, 0b11111101#8, 0b10011100#8] (.addRM .r1 0x9C) = true ∧
    decodesTo [0b10001011#8, 0b10011100#8, 0b11111110#8] (.addMR 0x9C .r2) = true ∧
    decodesTo [0b10001100#8, 0b10011100#8, 0b01101111#8] (.addMM 0x9C 0x6F) = true ∧
    decodesTo [0b10001101#8, 0b10011100#8, 0b11000011#8] (.addMI 0x9C 0xC3) = true := by decide

theorem test_decode_adc :
    decodesTo [0b10010000#8, 0b11110110#8] (.adcRR .r1 .r2) = true ∧
    decodesTo [0b10010001#8, 0b11111101#8, 0b11000011#8] (.adcRI .r1 0xC3) = true ∧
    decodesTo [0b10010010#8, 0b11111101#8, 0b10011100#8] (.adcRM .r1 0x9C) = true ∧
    decodesTo [0b10010011#8, 0b10011100#8, 0b11111110#8] (.adcMR 0x9C .r2) = true ∧
    decodesTo [0b10010100#8, 0b10011100#8, 0b01101111#8] (.adcMM 0x9C 0x6F) = true ∧
    decodesTo [0b10010101#8, 0b10011100#8, 0b11000011#8] (.adcMI 0x9C 0xC3) = true := by decide

theorem test_decode_sub :
    decodesTo [0b10011000#8, 0b11110110#8] (.subRR .r1 .r2) = true ∧
    decodesTo [0b10011001#8, 0b11111101#8, 0b11000011#8] (.subRI .r1 0xC3) = true ∧
    decodesTo [0b10011010#8, 0b11111101#8, 0b10011100#8] (.subRM .r1 0x9C) = true ∧
    decodesTo [0b10011011#8, 0b10011100#8, 0b11111110#8] (.subMR 0x9C .r2) = true ∧
    decodesTo [0b10011100#8, 0b10011100#8, 0b01101111#8] (.subMM 0x9C 0x6F) = true ∧
    decodesTo [0b10011101#8, 0b10011100#8, 0b11000011#8] (.subMI 0x9C 0xC3) = true := by decide

theorem test_decode_sbc :
    decodesTo [0b10100000#8, 0b11110110#8] (.sbcRR .r1 .r2) = true ∧
    decodesTo [0b10100001#8, 0b11111101#8, 0b11000011#8] (.sbcRI .r1 0xC3) = true ∧
    decodesTo [0b10100010#8, 0b11111101#8, 0b10011100#8] (.sbcRM .r1 0x9C) = true ∧
    decodesTo [0b10100011#8, 0b10011100#8, 0b11111110#8] (.sbcMR 0x9C .r2) = true ∧
    decodesTo [0b10100100#8, 0b10011100#8, 0b01101111#8] (.sbcMM 0x9C 0x6F) = true ∧
    decodesTo [0b10100101#8, 0b10011100#8, 0b11000011#8] (.sbcMI 0x9C 0xC3) = true := by decide

theorem test_decode_and :
    decodesTo [0b10101000#8, 0b11110110#8] (.andRR .r1 .r2) = true ∧
    decodesTo [0b10101001#8, 0b11111101#8, 0b11000011#8] (.andRI .r1 0xC3) = true ∧
    decodesTo [0b10101010#8, 0b11111101#8, 0b10011100#8] (.andRM .r1 0x9C) = true ∧
    decodesTo [0b10101011#8, 0b10011100#8, 0b11111110#8] (.andMR 0x9C .r2) = true ∧
    decodesTo [0b10101100#8, 0b10011100#8, 0b01101111#8] (.andMM 0x9C 0x6F) = true ∧
    decodesTo [0b10101101#8, 0b10011100#8, 0b11000011#8] (.andMI 0x9C 0xC3) = true := by decide

theorem test_decode_or :
    decodesTo [0b10110000#8, 0b11110110#8] (.orRR .r1 .r2) = true ∧
    decodesTo [0b10110001#8, 0b11111101#8, 0b11000011#8] (.orRI .r1 0xC3) = true ∧
    decodesTo [0b10110010#8, 0b11111101#8, 0b10011100#8] (.orRM .r1 0x9C) = true ∧
    decodesTo [0b10110011#8, 0b10011100#8, 0b11111110#8] (.orMR 0x9C .r2) = true ∧
    decodesTo [0b10110100#8, 0b10011100#8, 0b01101111#8] (.orMM 0x9C 0x6F) = true ∧
    decodesTo [0b10110101#8, 0b10011100#8, 0b11000011#8] (.orMI 0x9C 0xC3) = true := by decide

theorem test_decode_xor :
    decodesTo [0b10111000#8, 0b11110110#8] (.xorRR .r1 .r2) = true ∧
    decodesTo [0b10111001#8, 0b11111101#8, 0b11000011#8] (.xorRI .r1 0xC3) = true ∧
    decodesTo [0b10111010#8, 0b11111101#8, 0b10011100#8] (.xorRM .r1 0x9C) = true ∧
    decodesTo [0b10111011#8, 0b10011100#8, 0b11111110#8] (.xorMR 0x9C .r2) = true ∧
    decodesTo [0b10111100#8, 0b10011100#8, 0b01101111#8] (.xorMM 0x9C 0x6F) = true ∧
    decodesTo [0b10111101#8, 0b10011100#8, 0b11000011#8] (.xorMI 0x9C 0xC3) = true := by decide

theorem test_decode_cmp :
    decodesTo [0b11000000#8, 0b11110110#8] (.cmpRR .r1 .r2) = true ∧
    decodesTo [0b11000001#8, 0b11111101#8, 0b11000011#8] (.cmpRI .r1 0xC3) = true ∧
    decodesTo [0b11000010#8, 0b11111101#8, 0b10011100#8] (.cmpRM .r1 0x9C) = true ∧
    decodesTo [0b11000011#8, 0b10011100#8, 0b11111110#8] (.cmpMR 0x9C .r2) = true ∧
    decodesTo [0b11000100#8, 0b10011100#8, 0b01101111#8] (.cmpMM 0x9C 0x6F) = true ∧
    decodesTo [0b11000101#8, 0b10011100#8, 0b11000011#8] (.cmpMI 0x9C 0xC3) = true := by decide

theorem test_decode_LdSt :
    decodesTo [0b10000010#8, 0b11111101#8, 0b10011100#8] (.movRM .r1 0x9C) = true ∧
    decodesTo [0b10000011#8, 0b10011100#8, 0b11111110#8] (.movMR 0x9C .r2) = true := by decide

/-- Register operands at every number, the example words of R251, R252 and R102. -/
theorem test_decode_registers :
    decodesTo [0x40] (.incR .r0) = true ∧ decodesTo [0x41] (.incR .r1) = true ∧ decodesTo [0x42] (.incR .r2) = true ∧
    decodesTo [0x43] (.incR .r3) = true ∧ decodesTo [0x25, 0x0F] (.bitcR .r1 0x0F) = true ∧
    decodesTo [0x80, 0x0C] (.movRR .r3 .r0) = true ∧ decodesTo [0x80, 0x03] (.movRR .r0 .r3) = true := by decide

theorem test_decode_illegal :
    decodeInstr 0x06 0 0 = none ∧ decodeInstr 0x31 0 0 = none ∧ decodeInstr 0x45 0 0 = none ∧
    decodeInstr 0x86 0 0 = none ∧ decodeInstr 0xC8 0 0 = none ∧ decodeTableWord 8 0xFF = none := by decide

/-! ### One step, from the vectors -/

/-- The state with `bs` in RAM at `a` and the PC there, all else as after reset. -/
def at_ (a : Byte) (bs : List Byte) : State :=
  State.setPc { State.reset with ram := bs.zipIdx.foldl (fun m p => m.write (a.toNat + p.2) p.1) [] } a

/-- Registers, RAM, flags and run state of `t`, and its other fields, are those of `u`; the samples are not compared. -/
def same (t u : State) : Bool := decide ({ t with prev := u.prev } = u)

/-- One step from `s` gives `want`. -/
def stepsTo (s want : State) : Bool :=
  match step s with
  | .next t => same t want
  | _ => false

/-- `JR 0x05` (rule R200). -/
theorem test_V1_jr :
    let s := at_ 0x20 [0x08, 0x05]
    stepsTo s ((s).setReg .r3 0x05) = true := by decide

/-- `JZS 0x40` (rule R201). -/
theorem test_V4_jzs :
    let s := at_ 0x20 [0x09, 0x40]
    let s : State := { s with flags := { s.flags with zf := true } }
    stepsTo s ((s).setReg .r3 0x40) = true := by decide

/-- `JZC 0x40` (rule R202). -/
theorem test_V6_jzc :
    let s := at_ 0x20 [0x0A, 0x40]
    stepsTo s ((s).setReg .r3 0x40) = true := by decide

/-- `JCS 0x40` (rule R203). -/
theorem test_V8_jcs :
    let s := at_ 0x20 [0x0B, 0x40]
    let s : State := { s with flags := { s.flags with cf := true } }
    stepsTo s ((s).setReg .r3 0x40) = true := by decide

/-- `JCC 0x40` (rule R204). -/
theorem test_V10_jcc :
    let s := at_ 0x20 [0x0C, 0x40]
    stepsTo s ((s).setReg .r3 0x40) = true := by decide

/-- `JNS 0x40` (rule R205). -/
theorem test_V12_jns :
    let s := at_ 0x20 [0x0D, 0x40]
    let s : State := { s with flags := { s.flags with nf := true } }
    stepsTo s ((s).setReg .r3 0x40) = true := by decide

/-- `JNC 0x40` (rule R206). -/
theorem test_V14_jnc :
    let s := at_ 0x20 [0x0E, 0x40]
    let s : State := { s with flags := { s.flags with cf := true } }
    stepsTo s ((s).setReg .r3 0x40) = true := by decide

/-- `CALL 0x30` (rule R207). -/
theorem test_V16_call :
    let s := (at_ 0x10 [0x0F, 0x30]).setReg .r4 0xF0
    let w : State := { ((s).setReg .r3 0x30).setReg .r4 0xEF with ram := s.ram.write 0xEF 0x12 }
    stepsTo s w = true := by decide

/-- `RET` (rule R208). -/
theorem test_V21_ret :
    let s := (at_ 0x20 [0x04]).setReg .r4 0xEF
    let s : State := { s with ram := s.ram.write 0xEF 0x12 }
    stepsTo s (((s).setReg .r3 0x12).setReg .r4 0xF0) = true := by decide

/-- `RETI` (rule R209). -/
theorem test_V25_reti :
    let s := (at_ 0x20 [0x05]).setReg .r4 0xEE
    let s : State := { s with ram := s.ram.write 0xEE 0x24 }
    let w : State := { ((s).setReg .r3 0x24).setReg .r4 0xEF with flags := { s.flags with ief := true } }
    stepsTo s w = true := by decide

/-- `STOP` (rule R210). -/
theorem test_V27_stop :
    let s := at_ 0x07 [0x01]
    let w : State := { (s).setReg .r3 0x08 with run := .stopped }
    stepsTo s w = true := by decide

/-- `EI` (rule R211). -/
theorem test_V28_ei :
    let s := at_ 0x20 [0x02]
    let w : State := { (s).setReg .r3 0x21 with flags := { s.flags with ief := true } }
    stepsTo s w = true := by decide

/-- `DI` (rule R212). -/
theorem test_V30_di :
    let s := at_ 0x20 [0x03]
    let s : State := { s with flags := { s.flags with ief := true } }
    let w : State := { (s).setReg .r3 0x21 with flags := { s.flags with ief := false } }
    stepsTo s w = true := by decide

/-- `NOP` (rule R213). -/
theorem test_V31_nop :
    let s := at_ 0x00 [0x00]
    stepsTo s ((s).setReg .r3 0x01) = true := by decide

/-- `MOV R1,R2` (rule R220). -/
theorem test_V33_mov :
    let s := (at_ 0x20 [0x80, 0x06]).setReg .r2 0x5A
    stepsTo s (((s).setReg .r1 0x5A).setReg .r3 0x22) = true := by decide

/-- `MOV R0,0x2A` (rule R220). -/
theorem test_V34_mov :
    let s := at_ 0x20 [0x81, 0x00, 0x2A]
    stepsTo s (((s).setReg .r0 0x2A).setReg .r3 0x23) = true := by decide

/-- `MOV R0,(0xFC)` (rule R220). -/
theorem test_V35_mov :
    let s := at_ 0x20 [0x82, 0x00, 0xFC]
    let s : State := { s with inputs := { s.inputs with inp := { s.inputs.inp with fc := 0x0A } } }
    stepsTo s (((s).setReg .r0 0x0A).setReg .r3 0x23) = true := by decide

/-- `MOV (0x80),R1` (rule R220). -/
theorem test_V37_mov :
    let s := (at_ 0x20 [0x83, 0x80, 0x01]).setReg .r1 0x77
    let w : State := { (s).setReg .r3 0x23 with ram := s.ram.write 0x80 0x77 }
    stepsTo s w = true := by decide

/-- `MOV (0x81),(0x80)` (rule R220). -/
theorem test_V38_mov :
    let s := at_ 0x20 [0x84, 0x81, 0x80]
    let s : State := { s with ram := s.ram.write 0x80 0x42 }
    let w : State := { (s).setReg .r3 0x23 with ram := s.ram.write 0x81 0x42 }
    stepsTo s w = true := by decide

/-- `MOV (0xFE),0x81` (rule R220). -/
theorem test_V40_mov :
    let s := at_ 0x20 [0x85, 0xFE, 0x81]
    let w : State := { (s).setReg .r3 0x23 with out := { s.out with fe := 0x81 } }
    stepsTo s w = true := by decide

/-- `LDSP 0xF0` (rule R221). -/
theorem test_V49_ldsp :
    let s := at_ 0x20 [0x10, 0xF0]
    stepsTo s (((s).setReg .r3 0x22).setReg .r4 0xF0) = true := by decide

/-- `ADD R0,R1` (rule R231). -/
theorem test_V55_add :
    let s := ((at_ 0x20 [0x88, 0x01]).setReg .r0 0x05).setReg .r1 0x03
    stepsTo s (((s).setReg .r0 0x08).setReg .r3 0x22) = true := by decide

/-- `ADD R0,0x01` (rule R231). -/
theorem test_V56_add :
    let s := (at_ 0x20 [0x89, 0x00, 0x01]).setReg .r0 0xFF
    let w : State := { ((s).setReg .r0 0x00).setReg .r3 0x23 with flags := { s.flags with cf := true, zf := true } }
    stepsTo s w = true := by decide

/-- `ADD R0,(0xFD)` (rule R231). -/
theorem test_V57_add :
    let s := (at_ 0x20 [0x8A, 0x00, 0xFD]).setReg .r0 0x0A
    let s : State := { s with inputs := { s.inputs with inp := { s.inputs.inp with fd := 0x2A } } }
    stepsTo s (((s).setReg .r0 0x34).setReg .r3 0x23) = true := by decide

/-- `ADD (0x80),0x80` (rule R231). -/
theorem test_V58_add :
    let s := at_ 0x20 [0x8D, 0x80, 0x80]
    let s : State := { s with ram := s.ram.write 0x80 0x80 }
    let w : State := { (s).setReg .r3 0x23 with flags := { s.flags with cf := true, zf := true }, ram := s.ram.write 0x80 0x00 }
    stepsTo s w = true := by decide

/-- `ADC R0,R1` (rule R232). -/
theorem test_V61_adc :
    let s := ((at_ 0x20 [0x90, 0x01]).setReg .r0 0x05).setReg .r1 0x03
    let s : State := { s with flags := { s.flags with cf := true } }
    let w : State := { ((s).setReg .r0 0x09).setReg .r3 0x22 with flags := { s.flags with cf := false } }
    stepsTo s w = true := by decide

/-- `ADC R0,0x00` (rule R232). -/
theorem test_V62_adc :
    let s := (at_ 0x20 [0x91, 0x00, 0x00]).setReg .r0 0xFF
    let s : State := { s with flags := { s.flags with cf := true } }
    let w : State := { ((s).setReg .r0 0x00).setReg .r3 0x23 with flags := { s.flags with zf := true } }
    stepsTo s w = true := by decide

/-- `SUB R0,0x03` (rule R233). -/
theorem test_V64_sub :
    let s := (at_ 0x20 [0x99, 0x00, 0x03]).setReg .r0 0x05
    stepsTo s (((s).setReg .r0 0x02).setReg .r3 0x23) = true := by decide

/-- `SUB R0,R0` (rule R233). -/
theorem test_V66_sub :
    let s := (at_ 0x20 [0x98, 0x00]).setReg .r0 0x42
    let w : State := { ((s).setReg .r0 0x00).setReg .r3 0x22 with flags := { s.flags with zf := true } }
    stepsTo s w = true := by decide

/-- `SBC R0,0x03` (rule R234). -/
theorem test_V67_sbc :
    let s := (at_ 0x20 [0xA1, 0x00, 0x03]).setReg .r0 0x05
    let s : State := { s with flags := { s.flags with cf := true } }
    let w : State := { ((s).setReg .r0 0x01).setReg .r3 0x23 with flags := { s.flags with cf := false } }
    stepsTo s w = true := by decide

/-- `SBC (0x80),(0x81)` (rule R234). -/
theorem test_V69_sbc :
    let s := at_ 0x20 [0xA4, 0x80, 0x81]
    let s : State := { s with ram := Memory.write (s.ram.write 0x80 0x10) 0x81 0x10 }
    let w : State := { (s).setReg .r3 0x23 with flags := { s.flags with zf := true }, ram := s.ram.write 0x80 0x00 }
    stepsTo s w = true := by decide

/-- `AND R0,0x0F` (rule R235). -/
theorem test_V70_and :
    let s := (at_ 0x20 [0xA9, 0x00, 0x0F]).setReg .r0 0xF3
    let s : State := { s with flags := { s.flags with cf := true } }
    let w : State := { ((s).setReg .r0 0x03).setReg .r3 0x23 with flags := { s.flags with cf := false } }
    stepsTo s w = true := by decide

/-- `OR R0,0x80` (rule R236). -/
theorem test_V72_or :
    let s := (at_ 0x20 [0xB1, 0x00, 0x80]).setReg .r0 0x01
    let w : State := { ((s).setReg .r0 0x81).setReg .r3 0x23 with flags := { s.flags with nf := true } }
    stepsTo s w = true := by decide

/-- `OR (0xF9),0x01` (rule R236). -/
theorem test_V73_or :
    let s := at_ 0x20 [0xB5, 0xF9, 0x01]
    let s : State := { s with misr := 16 }
    let w : State := { (s).setReg .r3 0x23 with misr := 17 }
    stepsTo s w = true := by decide

/-- `XOR R0,R0` (rule R237). -/
theorem test_V74_xor :
    let s := (at_ 0x20 [0xB8, 0x00]).setReg .r0 0xA5
    let w : State := { ((s).setReg .r0 0x00).setReg .r3 0x22 with flags := { s.flags with zf := true } }
    stepsTo s w = true := by decide

/-- `XOR R0,0xFF` (rule R237). -/
theorem test_V75_xor :
    let s := (at_ 0x20 [0xB9, 0x00, 0xFF]).setReg .r0 0x0F
    let w : State := { ((s).setReg .r0 0xF0).setReg .r3 0x23 with flags := { s.flags with nf := true } }
    stepsTo s w = true := by decide

/-- `CMP R0,0x05` (rule R238). -/
theorem test_V76_cmp :
    let s := (at_ 0x20 [0xC1, 0x00, 0x05]).setReg .r0 0x05
    let w : State := { (s).setReg .r3 0x23 with flags := { s.flags with zf := true } }
    stepsTo s w = true := by decide

/-- `CMP (0xFC),0x01` (rule R238). -/
theorem test_V78_cmp :
    let s := at_ 0x20 [0xC5, 0xFC, 0x01]
    let s : State := { s with inputs := { s.inputs with inp := { s.inputs.inp with fc := 0x81 } } }
    let w : State := { (s).setReg .r3 0x23 with flags := { s.flags with nf := true } }
    stepsTo s w = true := by decide

/-- `TST R1` (rule R240). -/
theorem test_V80_tst :
    let s := (at_ 0x20 [0x79]).setReg .r1 0x80
    let s : State := { s with flags := { s.flags with cf := true } }
    let w : State := { (s).setReg .r3 0x21 with flags := { s.flags with cf := false, nf := true } }
    stepsTo s w = true := by decide

/-- `TST (0xFD)` (rule R240). -/
theorem test_V82_tst :
    let s := at_ 0x20 [0x7C, 0xFD]
    let s : State := { s with inputs := { s.inputs with inp := { s.inputs.inp with fd := 0x01 } } }
    stepsTo s ((s).setReg .r3 0x22) = true := by decide

/-- `INC R0` (rule R241). -/
theorem test_V83_inc :
    let s := at_ 0x20 [0x40]
    stepsTo s (((s).setReg .r0 0x01).setReg .r3 0x21) = true := by decide

/-- `INC (0x80)` (rule R241). -/
theorem test_V86_inc :
    let s := at_ 0x20 [0x44, 0x80]
    let s : State := { s with ram := s.ram.write 0x80 0x41 }
    let w : State := { (s).setReg .r3 0x22 with ram := s.ram.write 0x80 0x42 }
    stepsTo s w = true := by decide

/-- `DEC R0` (rule R242). -/
theorem test_V87_dec :
    let s := (at_ 0x20 [0x48]).setReg .r0 0x01
    let w : State := { ((s).setReg .r0 0x00).setReg .r3 0x21 with flags := { s.flags with zf := true } }
    stepsTo s w = true := by decide

/-- `DEC (0xFF)` (rule R242). -/
theorem test_V89_dec :
    let s := at_ 0x20 [0x4C, 0xFF]
    let s : State := { s with inputs := { s.inputs with inp := { s.inputs.inp with ff := 0x10 } }, out := { s.out with ff := 0x99 } }
    let w : State := { (s).setReg .r3 0x22 with out := { s.out with ff := 0x0F } }
    stepsTo s w = true := by decide

/-- `CLR R2` (rule R243). -/
theorem test_V90_clr :
    let s := (at_ 0x20 [0x52]).setReg .r2 0x55
    let s : State := { s with flags := { s.flags with cf := true, nf := true } }
    let w : State := { ((s).setReg .r2 0x00).setReg .r3 0x21 with flags := { s.flags with cf := false, zf := true, nf := false } }
    stepsTo s w = true := by decide

/-- `CLR (0xF5)` (rule R243). -/
theorem test_V91_clr :
    let s := at_ 0x20 [0x54, 0xF5]
    let s : State := { s with boot := { s.boot with strictIo := true } }
    let w : State := { (s).setReg .r3 0x22 with flags := { s.flags with zf := true } }
    stepsTo s w = true := by decide

/-- `NOT R0` (rule R244). -/
theorem test_V92_not :
    let s := (at_ 0x20 [0x58]).setReg .r0 0x0F
    let w : State := { ((s).setReg .r0 0xF0).setReg .r3 0x21 with flags := { s.flags with nf := true } }
    stepsTo s w = true := by decide

/-- `SHL R0` (rule R245). -/
theorem test_V94_shl :
    let s := (at_ 0x20 [0x60]).setReg .r0 0x81
    let w : State := { ((s).setReg .r0 0x02).setReg .r3 0x21 with flags := { s.flags with cf := true } }
    stepsTo s w = true := by decide

/-- `SHR R0` (rule R246). -/
theorem test_V96_shr :
    let s := (at_ 0x20 [0x68]).setReg .r0 0x81
    let w : State := { ((s).setReg .r0 0x40).setReg .r3 0x21 with flags := { s.flags with cf := true } }
    stepsTo s w = true := by decide

/-- `ASR R0` (rule R247). -/
theorem test_V98_asr :
    let s := (at_ 0x20 [0x70]).setReg .r0 0x81
    let w : State := { ((s).setReg .r0 0xC0).setReg .r3 0x21 with flags := { s.flags with cf := true, nf := true } }
    stepsTo s w = true := by decide

/-- `ASR (0x80)` (rule R247). -/
theorem test_V99_asr :
    let s := at_ 0x20 [0x74, 0x80]
    let s : State := { s with ram := s.ram.write 0x80 0x40 }
    let w : State := { (s).setReg .r3 0x22 with ram := s.ram.write 0x80 0x20 }
    stepsTo s w = true := by decide

/-- `BITS (0xF9),0x01` (rule R251). -/
theorem test_V100_bits :
    let s := at_ 0x20 [0x30, 0xF9, 0x01]
    let s : State := { s with misr := 16 }
    let w : State := { (s).setReg .r3 0x23 with misr := 17 }
    stepsTo s w = true := by decide

/-- `BITS R0,0x80` (rule R251). -/
theorem test_V101_bits :
    let s := (at_ 0x20 [0x20, 0x80]).setReg .r0 0x01
    let s : State := { s with flags := { s.flags with cf := true } }
    let w : State := { ((s).setReg .r0 0x81).setReg .r3 0x22 with flags := { s.flags with cf := false, nf := true } }
    stepsTo s w = true := by decide

/-- `BITC R1,0x0F` (rule R252). -/
theorem test_V103_bitc :
    let s := (at_ 0x20 [0x25, 0x0F]).setReg .r1 0x3C
    stepsTo s (((s).setReg .r1 0x30).setReg .r3 0x22) = true := by decide

/-- `BITC (0xF9),0x10` (rule R252). -/
theorem test_V104_bitc :
    let s := at_ 0x20 [0x34, 0xF9, 0x10]
    let s : State := { s with misr := 17 }
    let w : State := { (s).setReg .r3 0x23 with misr := 1 }
    stepsTo s w = true := by decide

/-- `BITT (0xFC),0x01` (rule R253). -/
theorem test_V106_bitt :
    let s := at_ 0x20 [0x38, 0xFC, 0x01]
    let s : State := { s with inputs := { s.inputs with inp := { s.inputs.inp with fc := 0x01 } } }
    stepsTo s ((s).setReg .r3 0x23) = true := by decide

/-- `BITT R2,0x80` (rule R253). -/
theorem test_V108_bitt :
    let s := (at_ 0x20 [0x2A, 0x80]).setReg .r2 0x80
    let w : State := { (s).setReg .r3 0x22 with flags := { s.flags with nf := true } }
    stepsTo s w = true := by decide

/-- `(byte 0x06)` (rule R112). -/
theorem test_V137_ill :
    let s := (at_ 0x20 [0x06]).setReg .r0 0x05
    let s : State := { s with flags := { s.flags with cf := true } }
    let w : State := { s with run := .errorHalted (.illegalOpcode 0x20) }
    stepsTo s w = true := by decide

/-- After reset the step fetches, decodes and runs the placed word: `LDSP 0xF0`, then `MOV R1,R2`. -/
theorem test_withFetchWord :
    stepsTo (State.reset.withFetchWord 16 0xF010) (((State.reset.withFetchWord 16 0xF010).setReg .r4 0xF0).setReg .r3 2)
      = true ∧
    stepsTo (State.reset.withFetchWord 16 0x0680) ((State.reset.withFetchWord 16 0x0680).setReg .r3 2) = true := by decide

/-! ### The interrupt unit, the board, the M-level and the assembler -/

/-- After reset, the key down in the inputs, KEY enabled. -/
def keyDown (s : State) : State := { s with inputs := { s.inputs with inp := { s.inputs.inp with fc := 1 } }, misr := 1 }

/-- IEF set and SP above the stack region. -/
def ready (s : State) : State := (s.setIef true).setSp 0xF0

/-- `STRICT_IO`. -/
def strict (s : State) : State := { s with boot := { s.boot with strictIo := true } }

/-- `PROGRAM_BOUND` = 0x40, with `STACKSIZE` 16. -/
def bounded (s : State) : State := { s with boot := { s.boot with programBound := some 0x40 } }

/-- Entry and return (60_exceptions.md R313, R316): the key's edge at 0x20 pushes 0x20 to 0xEF and goes to 0x02. -/
theorem test_interrupt_entry :
    let s := ready (keyDown (at_ 0x20 []))
    (match step s with
      | .next t => decide (t.pc = 0x02 ∧ t.sp = 0xEF ∧ t.ram.read 0xEF = 0x20 ∧ t.misr = 0x11 ∧ t.flags.ief = false ∧
          t.req = .zero)
      | _ => false) = true := by decide

/-- The temperature code at 0 V, 2.5 V and 5 V: 0, 127 and 255 (20_memory.md R72). -/
theorem test_temperature : adcCode 0 = 0 ∧ adcCode (mkRat 5 2) = 127 ∧ adcCode 5 = 255 ∧ adcCode (-1) = 0 := by decide

/-- M-level parameters of a ROM that holds the same control word everywhere. -/
def oneWord (w : ControlWord) : MicroParams where
  rom := fun _ => 0
  layout := fun _ => w
  opcEntry := fun _ => 5
  opcodeValid := referenceOpcodeValid
  regSelect := fun port v _ => match port with
    | .a => Reg.ofField v
    | .b => .r4
  aluCode := referenceAluCode
  macCode := referenceMacCode

/-- A word with every field 0. -/
def zeroWord : ControlWord := ⟨0, 0, false, 0, 0, 0, 0, false, false, false, false, false, false, false, 0⟩

/-- R1 <- R1 + R4 with the flags, then JUMP to the micro-state 3: the slice ZF, CF of before, 10, gives mp = 0x0E. -/
theorem test_micro_add :
    let w := { zeroWord with mac := 1, rgaa := 1, rgwe := true, chflg := true, na := 3 }
    let s : State := { ((at_ 0x20 []).setReg .r1 0xF0).setReg .r4 0x20 with flags := ⟨false, true, false, false⟩ }
    let t := tickFullCycle (oneWord w) s
    t.reg .r1 = 0x10 ∧ t.flags = ⟨true, false, false, false⟩ ∧ t.micro.mp = 0x0E ∧ t.run = .running := by decide

/-- A FETCH word at 0x20: the opcode goes to the latch, the PC moves by one, mp is the entry's micro-state 5. -/
theorem test_micro_fetch :
    let s := at_ 0x20 [0x08]
    let t := tickFullCycle (oneWord { zeroWord with mac := 4 }) s
    t.micro.opl = 0x08 ∧ t.pc = 0x21 ∧ t.micro.mp = 0x14 := by decide

/-- The same word with HALT stops the core after its commit half (40_datapath.md R165, 92_eei_decisions.md D46), and so does
one that enters an interrupt. -/
theorem test_micro_fetch_halt :
    let w : ControlWord := { zeroWord with mac := 4, halt := true }
    let t := tickFullCycle (oneWord w) (at_ 0x20 [0x08])
    let u := tickFullCycle (oneWord w) (ready (keyDown (at_ 0x20 [0x08])))
    t.run = .stopped ∧ t.micro.opl = 0x08 ∧ t.pc = 0x21 ∧ t.micro.phase = .read ∧
    u.run = .stopped ∧ u.pc = 0x02 ∧ u.micro.mp = 0 := by decide

/-- `MOV (FF), (33)` is 84 FF 21 (30_encoding.md R128). -/
theorem test_assemble_mov :
    (match assemble false "#! mrasm\nMOV (0xFF), (33)".toList with
      | .ok cfg => decide (cfg.image = [(0, 0x84), (1, 0xFF), (2, 0x21)] ∧ cfg.stackSize = .s16)
      | .error _ => false) = true := by decide

/-- `.ORG 0x10`, `NOP`, `.ORG 0x08` is rejected, and `.ORG 0x11` there is not (95_test_vectors.md 3.4). -/
theorem test_assemble_org :
    (match assemble false "#! mrasm\n.ORG 0x10\nNOP\n.ORG 0x08".toList with
      | .ok _ => false
      | .error e => decide (e = .orgBackwards)) = true ∧
    (match assemble false "#! mrasm\n.ORG 0x10\nNOP\n.ORG 0x11\n.DB 7".toList with
      | .ok cfg => decide (cfg.image = [(0x11, 7)])
      | .error _ => false) = true := by decide

/-! ### Witnesses: a state and operands that meet the hypotheses of a statement, clause by clause -/

/-- DecodeEncodeAgree. -/
theorem witness_DecodeEncodeAgree : (Instr.addRR .r3 .r0).WellFormed ∧ (Instr.st 0xFF .r3).WellFormed := by
  unfold Instr.WellFormed; decide

/-- EveryLegalByteDecodes. -/
theorem witness_EveryLegalByteDecodes :
    opcodeLength 0x00 = some 1 ∧ opcodeLength 0x10 = some 2 ∧ opcodeLength 0xC5 = some 3 := by decide

/-- IllegalOpcodesRaise. -/
theorem witness_IllegalOpcodesRaise :
    let s := at_ 0x20 [0x06]
    s.run = .running ∧ s.sampleInputs.dueSource = none ∧ s.Readable s.pc ∧ s.busValue s.pc ∈ illegalOpcodes := by
  unfold State.Readable; decide

/-- RegisterFields: the four formats at the first opcode that has them. -/
theorem witness_RegisterFields :
    decodeInstr 0x43 0 0 = some (.incR .r3) ∧ 0x80 ≤ (0x80#8).toNat ∧ (0x80#8).toNat % 8 = 0 ∧ (0x81#8).toNat % 8 = 1 ∧
    (0x82#8).toNat % 8 = 2 ∧ (0x83#8).toNat % 8 = 3 := by decide

/-- StepRunsDecodedInstruction: an instruction of three bytes that ends at the top of RAM. -/
theorem witness_StepRunsDecodedInstruction :
    let s := strict (at_ 0xED [0x85, 0x80, 0x11])
    s.run = .running ∧ s.sampleInputs.dueSource = none ∧
    decode [s.busValue s.pc, s.busValue (s.pc + 1), s.busValue (s.pc + 2)] = .ok (.movMI 0x80 0x11, []) ∧
    ∀ k, k < (Instr.movMI 0x80 0x11).length → s.Readable (s.pc + BitVec.ofNat 8 k) := by
  unfold State.Readable; exact ⟨rfl, rfl, rfl, by decide⟩

/-- InstructionCycle: an interrupt due; an opcode at an address with no register; an illegal opcode; a second byte, and a
third byte, that cannot be read; every byte readable. -/
theorem witness_InstructionCycle :
    (let s := ready (keyDown (at_ 0x20 []));
      s.run = .running ∧ s.sampleInputs.dueSource = some .key) ∧
    (let s := strict (at_ 0xF4 []);
      s.run = .running ∧ s.sampleInputs.dueSource = none ∧ ¬ s.Readable s.pc) ∧
    (let s := at_ 0x20 [0xFF];
      s.run = .running ∧ s.sampleInputs.dueSource = none ∧ s.Readable s.pc ∧ opcodeLength (s.busValue s.pc) = none) ∧
    (let s : State := { strict (at_ 0xF9 []) with misr := 0x08 };
      s.run = .running ∧ s.sampleInputs.dueSource = none ∧ s.Readable s.pc ∧
      opcodeLength (s.busValue s.pc) = some 2 ∧ ¬ s.Readable (s.pc + BitVec.ofNat 8 1)) ∧
    (let s : State := { strict (at_ 0xF2 []) with uioDir := 3 };
      s.run = .running ∧ s.sampleInputs.dueSource = none ∧ s.Readable s.pc ∧
      opcodeLength (s.busValue s.pc) = some 3 ∧
      (∀ j, 1 ≤ j → j < 2 → s.Readable (s.pc + BitVec.ofNat 8 j)) ∧ ¬ s.Readable (s.pc + BitVec.ofNat 8 2)) ∧
    (let s := strict (at_ 0xED [0x85, 0x80, 0x11]);
      s.run = .running ∧ s.sampleInputs.dueSource = none ∧ s.Readable s.pc ∧
      opcodeLength (s.busValue s.pc) = some 3 ∧
      ∀ k, 1 ≤ k → k < 3 → s.Readable (s.pc + BitVec.ofNat 8 k)) := by
  unfold State.Readable
  refine ⟨by decide, by decide, by decide, by decide, ?_, ?_⟩
  · refine ⟨by decide, by decide, by decide, by decide, fun j h1 h2 => ?_, by decide⟩
    obtain rfl : j = 1 := by omega
    decide
  · refine ⟨by decide, by decide, by decide, by decide, fun k h1 h2 => ?_⟩
    obtain rfl | rfl : k = 1 ∨ k = 2 := by omega
    · decide
    · decide

/-- NoStepOutsideRunning. -/
theorem witness_NoStepOutsideRunning :
    (State.reset.setRun .stopped).run ≠ .running ∧ (State.reset.raise (.illegalOpcode 0)).run ≠ .running := by decide

/-- StepKeepsMemoryForm, SessionsKeepMemoryForm, ConfigurationAndInputsStay: a state with bytes at both ends of RAM that meets
the invariant, and a step from it that answers a next state. -/
theorem witness_StepKeepsMemoryForm :
    let s : State := { at_ 0x00 [0x85, 0xEF, 0x00] with ram := [(0, 0x85), (1, 0xEF), (0xEF, 0x01)] }
    s.Inv ∧ step s = .next { (s.sampleInputs.setPc 3) with ram := [(0, 0x85), (1, 0xEF)] } := by
  unfold State.Inv; exact ⟨by decide, rfl⟩

/-- HiddenRegisters: a step; an instruction outside the stack group with its next state. -/
theorem witness_HiddenRegisters :
    (∃ t, step (at_ 0x20 [0x40]) = .next t) ∧
    (Instr.incR .r3).WellFormed ∧ Instr.incR .r3 ≠ .ret ∧ Instr.incR .r3 ≠ .reti ∧ (∀ a, Instr.incR .r3 ≠ .call a) ∧
    (∀ n, Instr.incR .r3 ≠ .ldsp n) ∧ ∃ t, exec (.incR .r3) State.reset = .next t := by
  refine ⟨⟨_, rfl⟩, ?_, ?_, ?_, ?_, ?_, ⟨_, rfl⟩⟩
  · unfold Instr.WellFormed; decide
  · decide
  · decide
  · exact fun a h => by cases h
  · exact fun a h => by cases h

/-- FlagWriters, clause by clause. -/
theorem witness_FlagWriters :
    ((∃ t, exec (.movRI .r0 0) State.reset = .next t) ∧ writesFlags (.movRI .r0 0) = false) ∧
    ((∃ t, exec (.incR .r0) State.reset = .next t) ∧ Instr.incR .r0 ≠ .ei ∧ Instr.incR .r0 ≠ .di ∧
      Instr.incR .r0 ≠ .reti) ∧
    (∃ t, exec .ei State.reset = .next t) ∧ (∃ t, exec .di State.reset = .next t) ∧
    ((∃ t, exec .reti State.reset = .next t) ∧ State.reset.Readable State.reset.sp) ∧
    ∃ t, (ready State.reset).enterInterrupt .uio3 = .ok t := by
  unfold State.Readable
  exact ⟨⟨⟨_, rfl⟩, rfl⟩, ⟨⟨_, rfl⟩, by decide⟩, ⟨_, rfl⟩, ⟨_, rfl⟩, ⟨⟨_, rfl⟩, by decide⟩, ⟨_, rfl⟩⟩

/-- InstructionFrame: a form that stores nothing, a store of the last RAM byte, of MISR, and of a stack slot. -/
theorem witness_InstructionFrame :
    storeAddr State.reset (.cmpMM 0xEF 0xF0) = none ∧ storeAddr State.reset (.movMI 0xEF 1) = some 0xEF ∧
    storeAddr State.reset (.clrM 0xF9) = some 0xF9 ∧ storeAddr (ready State.reset) (.call 0) = some 0xEF ∧
    (∃ t, exec (.cmpMM 0xEF 0xF0) State.reset = .next t) ∧ ∃ t, exec (.movMI 0xEF 1) State.reset = .next t :=
  ⟨rfl, rfl, rfl, rfl, ⟨_, rfl⟩, ⟨_, rfl⟩⟩

/-- PreciseErrors: the read-modify-write of the note in R120, and a refused push. -/
theorem witness_PreciseErrors :
    (let s := bounded (at_ 0x20 [0x44, 0x40]);
      s.run = .running ∧ step s = .next (s.sampleInputs.raise (.outOfBoundsWrite 0x40))) ∧
    (let s := (at_ 0x20 [0x0F, 0x40]).setSp 0xE0;
      s.run = .running ∧ step s = .next (s.sampleInputs.raise (.stackOverflow 0xDF))) :=
  ⟨⟨rfl, rfl⟩, rfl, rfl⟩

/-- FirstErrorIsReported: the first read refused; the second; a refused write after allowed reads; a refused push; none. -/
theorem witness_FirstErrorIsReported :
    (let s := strict State.reset;
      operandReads s (.addMM 0xF4 0xFB) = [] ++ 0xF4 :: [0xFB] ∧ ¬ s.Readable 0xF4) ∧
    (let s := strict State.reset;
      operandReads s (.addMM 0x40 0xFB) = [0x40] ++ 0xFB :: [] ∧ (∀ b ∈ [0x40#8], s.Readable b) ∧ ¬ s.Readable 0xFB) ∧
    (let s := bounded State.reset;
      (∀ b ∈ operandReads s (.incM 0x40), s.Readable b) ∧ storeAddr s (.incM 0x40) = some 0x40 ∧ ¬ s.Writable 0x40) ∧
    (let s := State.reset.setSp 0xE0;
      (∀ b ∈ operandReads s (.call 0), s.Readable b) ∧ ¬ s.PushAllowed) ∧
    (let s := bounded (ready State.reset);
      (∀ b ∈ operandReads s (.incM 0x3F), s.Readable b) ∧ s.Writable 0x3F ∧ s.PushAllowed) := by
  unfold State.Readable State.Writable State.PushAllowed; decide

/-- CallResult: the first and the last slot of the stack region, the one below it, and no limit at all. -/
theorem witness_CallResult :
    (State.reset.setSp 0xF0).PushAllowed ∧ (State.reset.setSp 0xE1).PushAllowed ∧
    (let s := State.reset.setSp 0xE0;
      s.boot.stackSize ≠ .s0 ∧ s.boot.inStack (s.sp - 1) = false) ∧
    { State.reset with boot := { State.reset.boot with stackSize := .s0 } }.PushAllowed := by
  unfold State.PushAllowed; decide

/-- RetResult, RetiResult: a pop from RAM, and one from an address with no register in strict mode. -/
theorem witness_RetResult :
    (strict (State.reset.setSp 0xEF)).Readable 0xEF ∧ ¬ (strict (State.reset.setSp 0xF4)).Readable 0xF4 := by
  unfold State.Readable; decide

/-- MovResult, LdStResults, AddResult, AdcResult, SubResult, SbcResult, LogicResults, CmpResult, IncDecResults, ClrNotResults,
ShiftResults, TstResult, BitsBitcResults, BittResult: accesses allowed at the edges of RAM, of the bound, of the stack region
and of the devices; reads refused, first or second; a write refused, with the reads before it allowed. -/
theorem witness_OperandResults :
    (let s := strict (bounded State.reset);
      s.Readable 0x00 ∧ s.Writable 0x00 ∧ s.Readable 0x3F ∧ s.Writable 0x3F ∧ s.Readable 0xE0 ∧ s.Writable 0xE0 ∧
      s.Readable 0xF3 ∧ s.Writable 0xF3 ∧ s.Readable 0xFF ∧ s.Writable 0xFF) ∧
    (let s := strict State.reset;
      ¬ s.Readable 0xF4 ∧ ¬ s.Readable 0xFB ∧ (∀ b ∈ [0xEF#8], s.Readable b) ∧ [0xEF#8, 0xFB#8] = [0xEF] ++ 0xFB :: []) ∧
    (let s := bounded State.reset;
      (∀ b ∈ [0x40#8, 0xDF#8], s.Readable b) ∧ ¬ s.Writable 0x40 ∧ ¬ s.Writable 0xDF) := by
  unfold State.Readable State.Writable; decide

/-- BusReadTable, BusWriteTable, WriteChecks: a check that refuses and one that passes, of either kind, where they meet. -/
theorem witness_WriteChecks :
    (bounded State.reset).boot.writeCheck 0x40 .data = some (.outOfBoundsWrite 0x40) ∧
    (bounded State.reset).boot.writeCheck 0x3F .data = none ∧ (bounded State.reset).boot.writeCheck 0xDF .data ≠ none ∧
    (bounded State.reset).boot.writeCheck 0xE0 .data = none ∧ (bounded State.reset).boot.writeCheck 0xF0 .data = none ∧
    State.reset.boot.writeCheck 0xDF .stack = some (.stackOverflow 0xDF) ∧ State.reset.boot.writeCheck 0xE0 .stack = none ∧
    State.reset.boot.writeCheck 0xEF .stack = none ∧ State.reset.boot.writeCheck 0xF0 .stack ≠ none := by decide

/-- ReadAfterWrite: the last RAM byte, an analog latch, an output port, MISR. -/
theorem witness_ReadAfterWrite :
    State.reset.Inv ∧ (∃ t, State.reset.busWrite 0xEF 1 .data = .ok t) ∧ (∃ t, State.reset.busWrite 0xF0 1 .data = .ok t) ∧
    (∃ t, State.reset.busWrite 0xFC 1 .data = .ok t) ∧ ∃ t, State.reset.busWrite 0xF9 1 .data = .ok t := by
  unfold State.Inv
  exact ⟨by decide, ⟨_, rfl⟩, ⟨_, rfl⟩, ⟨_, rfl⟩, ⟨_, rfl⟩⟩

/-- InterruptEntry, DueSource: a due interrupt with room for the push, and one without. -/
theorem witness_InterruptEntry :
    (let s := ready (keyDown (at_ 0x20 []));
      s.run = .running ∧ s.sampleInputs.dueSource = some .key ∧ s.PushAllowed) ∧
    (let s := (ready (keyDown (at_ 0x20 []))).setSp 0xE0;
      s.run = .running ∧ s.sampleInputs.dueSource = some .key ∧ ¬ s.PushAllowed) := by
  unfold State.PushAllowed; decide

/-- ReturnRestoresEntry: the push goes to the last RAM byte. -/
theorem witness_ReturnRestoresEntry :
    (ready State.reset).Inv ∧ ((ready State.reset).sp - 1).toNat ≤ 0xEF ∧
    ∃ t, (ready State.reset).enterInterrupt .key = .ok t := by
  unfold State.Inv
  exact ⟨by decide, by decide, ⟨_, rfl⟩⟩

/-- RequestsStayLatched: a latched request with IEF clear, and one that is taken. -/
theorem witness_RequestsStayLatched :
    (let s : State := { at_ 0x20 [0x00] with req := ⟨false, false, true, false⟩ };
      (∃ t, step s = .next t) ∧ s.req.get .uio2 = true) ∧
    (let s : State := { ready (at_ 0x20 []) with req := ⟨false, false, true, false⟩, misr := 4 };
      (∃ t, step s = .next t) ∧ s.req.get .uio2 = true ∧ s.sampleInputs.dueSource = some .uio2) :=
  ⟨⟨⟨_, rfl⟩, rfl⟩, ⟨_, rfl⟩, rfl, rfl⟩

/-- RunStateTransitions: the three run states, a reset and another action. -/
theorem witness_RunStateTransitions :
    (State.reset.setRun .stopped).run = .stopped ∧ State.reset.run ≠ .stopped ∧
    (State.reset.raise (.illegalOpcode 0)).run = .errorHalted (.illegalOpcode 0) ∧
    HostAction.reset .keep = .reset .keep ∧ ∀ k, HostAction.step ≠ .reset k := by
  exact ⟨rfl, by decide, rfl, rfl, fun k h => by cases h⟩

/-- StackDepth: sixteen bytes and seventeen, with `STACKSIZE` 16. -/
theorem witness_StackDepth :
    (ready State.reset).sp = 0xF0#8 ∧ (ready State.reset).boot.stackSize ≠ .s0 ∧
    (List.replicate 16 (0#8)).length ≤ (ready State.reset).boot.stackSize.bytes ∧
    (List.replicate 17 (0#8)).length = (ready State.reset).boot.stackSize.bytes + 1 := by decide

/-- AssembledImages. -/
theorem witness_AssembledImages : ∃ cfg, assemble true "#! mrasm\nSTOP".toList = .ok cfg := ⟨_, rfl⟩

/-- IllFormedWordsRaise: the three ways. -/
theorem witness_IllFormedWordsRaise :
    State.reset.run = .running ∧ State.reset.micro.phase = .read ∧ referenceMacCode 5 = none ∧
    2 ≤ ({ zeroWord with bsel := 2 } : ControlWord).bsel.toNat ∧
    referenceMacCode ({ zeroWord with mac := 4, busen := true } : ControlWord).mac = some .fetch := by decide

/-- ReadHalf: a FETCH word; a word that reads an address with a register, and one with none, in strict mode. -/
theorem witness_ReadHalf :
    (let w : ControlWord := { zeroWord with mac := 4 };
      w.bsel.toNat < 2 ∧ (oneWord w).macCode w.mac = some .fetch ∧ w.rgwe = false ∧ w.busen = false ∧ w.chflg = false) ∧
    (let w : ControlWord := { zeroWord with busen := true, bsel := 1 };
      w.bsel.toNat < 2 ∧ (oneWord w).macCode w.mac = some .next ∧ w.buswr = false ∧
      (strict State.reset).run = .running ∧ (strict State.reset).micro.phase = .read ∧
      (strict (State.reset.setReg .r0 0xF3)).Readable ((State.reset.setReg .r0 0xF3).reg .r0) ∧
      ¬ (strict (State.reset.setReg .r0 0xF4)).Readable ((State.reset.setReg .r0 0xF4).reg .r0)) := by
  unfold State.Readable; decide

/-- CommitHalf: a word that writes at the address latched in RA, as data and as a push, allowed and refused. -/
theorem witness_CommitHalf :
    let w : ControlWord := { zeroWord with busen := true, buswr := true }
    let m (ia : Reg) (ra : Byte) : State :=
      { bounded State.reset with micro := { MicroState.reset with phase := .commit, ia := ia, ra := ra } }
    (oneWord w).macCode w.mac = some .next ∧ (m .r0 0x3F).run = .running ∧ (m .r0 0x3F).micro.phase = .commit ∧
    (m .r0 0x3F).boot.writeCheck 0x3F .data = none ∧
    (m .r0 0x40).boot.writeCheck 0x40 .data = some (.outOfBoundsWrite 0x40) ∧
    (m .r4 0xE0).boot.writeCheck 0xE0 .stack = none ∧
    (m .r4 0xDF).boot.writeCheck 0xDF .stack = some (.stackOverflow 0xDF) := by decide

/-- FetchCommit: an interrupt due with and without room for the push; a valid opcode, an illegal one, and one at an address
with no register in strict mode. -/
theorem witness_FetchCommit :
    let w : ControlWord := { zeroWord with mac := 4 }
    let c (s : State) : State := { s with micro := { MicroState.reset with phase := .commit } }
    let due (s : State) : State := { s with req := ⟨true, false, false, false⟩, misr := 1 }
    (oneWord w).macCode w.mac = some .fetch ∧ referenceMacCode { w with halt := true }.mac = some .fetch ∧
    (c State.reset).run = .running ∧
    (c State.reset).micro.phase = .commit ∧
    ((c (due (ready State.reset))).dueSource = some .key ∧ (c (due (ready State.reset))).PushAllowed) ∧
    ((c (due ((ready State.reset).setSp 0xE0))).dueSource = some .key ∧
      ¬ (c (due ((ready State.reset).setSp 0xE0))).PushAllowed) ∧
    ((c (at_ 0x20 [0x08])).dueSource = none ∧ (c (at_ 0x20 [0x08])).Readable 0x20 ∧
      referenceOpcodeValid ((c (at_ 0x20 [0x08])).busValue 0x20) = true) ∧
    referenceOpcodeValid ((c (at_ 0x20 [0x06])).busValue 0x20) = false ∧
    ¬ (c (strict (at_ 0xF4 []))).Readable 0xF4 := by
  unfold State.Readable State.PushAllowed; decide


end Sys2Proof.Tests
end

section
/-! Outside `Running` nothing moves (00_scope.md R9): one frame lemma for each way to advance the machine, and the obligation
from them. -/

namespace Sys2Proof.Machine

/-- The three values of the run state. -/
theorem RunState.cases_eq (r : RunState) : r = .running ∨ r = .stopped ∨ ∃ e, r = .errorHalted e := by
  cases r with
  | running => exact .inl rfl
  | stopped => exact .inr (.inl rfl)
  | errorHalted e => exact .inr (.inr ⟨e, rfl⟩)

theorem step_of_not_running {s : State} (h : s.run ≠ .running) : step s = .next s := by
  obtain hr | hr | ⟨e, hr⟩ := s.run.cases_eq
  · exact absurd hr h
  · simp only [step, hr]
  · simp only [step, hr]

theorem tickHalfCycle_of_not_running (p : MicroParams) {s : State} (h : s.run ≠ .running) : tickHalfCycle p s = s := by
  obtain hr | hr | ⟨e, hr⟩ := s.run.cases_eq
  · exact absurd hr h
  · simp only [tickHalfCycle, hr]
  · simp only [tickHalfCycle, hr]

/-- The first half cycle changes nothing, so the second begins outside `Running` too. -/
theorem tickFullCycle_of_not_running (p : MicroParams) {s : State} (h : s.run ≠ .running) : tickFullCycle p s = s := by
  have half := tickHalfCycle_of_not_running p h
  rw [tickFullCycle, half, half]

/-- No induction on the number of cycles: the loop's guard refuses the first. -/
theorem runCycles_of_not_running (p : MicroParams) (n : Nat) {s : State} (h : s.run ≠ .running) :
    runCycles p n s = s := by
  cases n with
  | zero => rfl
  | succ n => rw [runCycles, if_neg h]

/-- Settles O8: the three run states, and each way to advance the machine by its frame lemma. -/
theorem noStepOutsideRunning : Obligations.NoStepOutsideRunning :=
  ⟨RunState.cases_eq, fun p n _ h =>
    ⟨step_of_not_running h, tickHalfCycle_of_not_running p h, tickFullCycle_of_not_running p h,
      runCycles_of_not_running p n h⟩⟩

end Sys2Proof.Machine
end

section
/-! The bodies of the instructions. The 93 arms of `exec` share thirteen kinds of body: the operand rules of 43_alu.md,
44_bit_ops.md and 42_data_move.md, the jump, and the instructions without an operand place. `bodyOf` names the one of each
instruction, `exec_eq_instruction` ties it to `exec`, and the lemmas after it tie the model's tables of operands, stores and
flags to the body. What holds for every instruction is then shown by cases on its body. -/

namespace Sys2Proof.Machine

/-- The kinds of instruction body (the pseudocode of an instruction, after its PC update). -/
inductive Body where
  | two (fn : AluFn) (useCf wb : Bool) (dst : Place) (src : Operand)
  | one (fn : AluFn) (rd wb : Bool) (opd : Place)
  | bit (fn : BitFn) (wb : Bool) (dst : Place) (m : Byte)
  | move (dst : Place) (src : Operand)
  | jump (cond : Flags → Bool) (t : Byte)
  | call (t : Byte)
  | ldsp (n : Byte)
  | ret | reti | nop | stop | ei | di

/-- The shared operation of the model that a body is. -/
def Body.run : Body → State → Except Fault State
  | .two fn useCf wb dst src => twoOp fn useCf wb dst src
  | .one fn rd wb opd => oneOp fn rd wb opd
  | .bit fn wb dst m => bitOp fn wb dst m
  | .move dst src => moveOp dst src
  | .jump cond t => fun s => jumpIf (cond s.flags) t s
  | .call t => callOp t
  | .ldsp n => fun s => .ok (s.setSp n)
  | .ret => returnOp
  | .reti => State.returnFromInterrupt
  | .nop => fun s => .ok s
  | .stop => fun s => .ok (s.setRun .stopped)
  | .ei => fun s => .ok (s.setIef true)
  | .di => fun s => .ok (s.setIef false)

/-- The body of each instruction. -/
def bodyOf : Instr → Body
  | .nop => .nop
  | .stop => .stop
  | .ei => .ei
  | .di => .di
  | .ret => .ret
  | .reti => .reti
  | .jr t => .jump (fun _ => true) t
  | .jzs t => .jump Flags.zf t
  | .jzc t => .jump (!·.zf) t
  | .jcs t => .jump Flags.cf t
  | .jcc t => .jump (!·.cf) t
  | .jns t => .jump Flags.nf t
  | .jnc t => .jump (!·.nf) t
  | .call t => .call t
  | .ldsp n => .ldsp n
  | .bitsR r m => .bit .set true (.reg r) m
  | .bitsM a m => .bit .set true (.mem a) m
  | .bitcR r m => .bit .clear true (.reg r) m
  | .bitcM a m => .bit .clear true (.mem a) m
  | .bittR r m => .bit .test false (.reg r) m
  | .bittM a m => .bit .test false (.mem a) m
  | .incR r => .one .incA true true (.reg r)
  | .incM a => .one .incA true true (.mem a)
  | .decR r => .one .decA true true (.reg r)
  | .decM a => .one .decA true true (.mem a)
  | .clrR r => .one .zero false true (.reg r)
  | .clrM a => .one .zero false true (.mem a)
  | .notR r => .one .notA true true (.reg r)
  | .notM a => .one .notA true true (.mem a)
  | .shlR r => .one .shl true true (.reg r)
  | .shlM a => .one .shl true true (.mem a)
  | .shrR r => .one .shr true true (.reg r)
  | .shrM a => .one .shr true true (.mem a)
  | .asrR r => .one .asr true true (.reg r)
  | .asrM a => .one .asr true true (.mem a)
  | .tstR r => .one .passA true false (.reg r)
  | .tstM a => .one .passA true false (.mem a)
  | .movRR d r => .move (.reg d) (.place (.reg r))
  | .movRI d n => .move (.reg d) (.imm n)
  | .movRM d a => .move (.reg d) (.place (.mem a))
  | .movMR a r => .move (.mem a) (.place (.reg r))
  | .movMM a b => .move (.mem a) (.place (.mem b))
  | .movMI a n => .move (.mem a) (.imm n)
  | .addRR d r => .two .add false true (.reg d) (.place (.reg r))
  | .addRI d n => .two .add false true (.reg d) (.imm n)
  | .addRM d a => .two .add false true (.reg d) (.place (.mem a))
  | .addMR a r => .two .add false true (.mem a) (.place (.reg r))
  | .addMM a b => .two .add false true (.mem a) (.place (.mem b))
  | .addMI a n => .two .add false true (.mem a) (.imm n)
  | .adcRR d r => .two .addc true true (.reg d) (.place (.reg r))
  | .adcRI d n => .two .addc true true (.reg d) (.imm n)
  | .adcRM d a => .two .addc true true (.reg d) (.place (.mem a))
  | .adcMR a r => .two .addc true true (.mem a) (.place (.reg r))
  | .adcMM a b => .two .addc true true (.mem a) (.place (.mem b))
  | .adcMI a n => .two .addc true true (.mem a) (.imm n)
  | .subRR d r => .two .sub false true (.reg d) (.place (.reg r))
  | .subRI d n => .two .sub false true (.reg d) (.imm n)
  | .subRM d a => .two .sub false true (.reg d) (.place (.mem a))
  | .subMR a r => .two .sub false true (.mem a) (.place (.reg r))
  | .subMM a b => .two .sub false true (.mem a) (.place (.mem b))
  | .subMI a n => .two .sub false true (.mem a) (.imm n)
  | .sbcRR d r => .two .subc true true (.reg d) (.place (.reg r))
  | .sbcRI d n => .two .subc true true (.reg d) (.imm n)
  | .sbcRM d a => .two .subc true true (.reg d) (.place (.mem a))
  | .sbcMR a r => .two .subc true true (.mem a) (.place (.reg r))
  | .sbcMM a b => .two .subc true true (.mem a) (.place (.mem b))
  | .sbcMI a n => .two .subc true true (.mem a) (.imm n)
  | .andRR d r => .two .and false true (.reg d) (.place (.reg r))
  | .andRI d n => .two .and false true (.reg d) (.imm n)
  | .andRM d a => .two .and false true (.reg d) (.place (.mem a))
  | .andMR a r => .two .and false true (.mem a) (.place (.reg r))
  | .andMM a b => .two .and false true (.mem a) (.place (.mem b))
  | .andMI a n => .two .and false true (.mem a) (.imm n)
  | .orRR d r => .two .or false true (.reg d) (.place (.reg r))
  | .orRI d n => .two .or false true (.reg d) (.imm n)
  | .orRM d a => .two .or false true (.reg d) (.place (.mem a))
  | .orMR a r => .two .or false true (.mem a) (.place (.reg r))
  | .orMM a b => .two .or false true (.mem a) (.place (.mem b))
  | .orMI a n => .two .or false true (.mem a) (.imm n)
  | .xorRR d r => .two .xor false true (.reg d) (.place (.reg r))
  | .xorRI d n => .two .xor false true (.reg d) (.imm n)
  | .xorRM d a => .two .xor false true (.reg d) (.place (.mem a))
  | .xorMR a r => .two .xor false true (.mem a) (.place (.reg r))
  | .xorMM a b => .two .xor false true (.mem a) (.place (.mem b))
  | .xorMI a n => .two .xor false true (.mem a) (.imm n)
  | .cmpRR d r => .two .sub false false (.reg d) (.place (.reg r))
  | .cmpRI d n => .two .sub false false (.reg d) (.imm n)
  | .cmpRM d a => .two .sub false false (.reg d) (.place (.mem a))
  | .cmpMR a r => .two .sub false false (.mem a) (.place (.reg r))
  | .cmpMM a b => .two .sub false false (.mem a) (.place (.mem b))
  | .cmpMI a n => .two .sub false false (.mem a) (.imm n)
  | .ld d a => .move (.reg d) (.place (.mem a))
  | .st a r => .move (.mem a) (.place (.reg r))

/-- Every instruction is its body, run with the PC moved past the instruction's bytes (30_encoding.md R118). -/
theorem exec_eq_instruction (i : Instr) (s : State) :
    exec i s = instruction (BitVec.ofNat 8 i.length) (bodyOf i).run s := by
  cases i <;> rfl

/-! ### The operands of a body -/

/-- The registers a place names. -/
def Place.regs : Place → List Reg
  | .reg r => [r]
  | .mem _ => []

/-- The bus address a place names. -/
def Place.addr : Place → Option Byte
  | .reg _ => none
  | .mem a => some a

/-- The registers an operand names. -/
def Operand.regs : Operand → List Reg
  | .place p => p.regs
  | .imm _ => []

/-- The registers a body names as operands. -/
def Body.namedRegs : Body → List Reg
  | .two _ _ _ dst src | .move dst src => dst.regs ++ src.regs
  | .one _ _ _ p | .bit _ _ p _ => p.regs
  | _ => []

/-- Whether a body works on the SP. -/
def Body.usesSp : Body → Bool
  | .call _ | .ret | .reti | .ldsp _ => true
  | _ => false

/-- The registers, other than the PC, that a body may write. -/
def Body.writtenRegs : Body → List Reg
  | .two _ _ wb p _ | .one _ _ wb p | .bit _ wb p _ => if wb then p.regs else []
  | .move dst _ => dst.regs
  | .call _ | .ret | .reti | .ldsp _ => [.r4]
  | _ => []

/-- The bus address a body stores to. -/
def Body.storeAddr (s : State) : Body → Option Byte
  | .two _ _ wb p _ | .one _ _ wb p | .bit _ wb p _ => if wb then p.addr else none
  | .move dst _ => dst.addr
  | .call _ => some (s.sp - 1)
  | _ => none

/-- Whether a body commits CF, ZF and NF. -/
def Body.writesFlags : Body → Bool
  | .two .. | .one .. | .bit .. => true
  | _ => false

/-- Whether a body writes IEF. -/
def Body.writesIef : Body → Bool
  | .ei | .di | .reti => true
  | _ => false

theorem namedRegs_bodyOf (i : Instr) : (bodyOf i).namedRegs = i.namedRegs := by
  cases i <;> rfl

theorem writtenRegs_bodyOf (i : Instr) : (bodyOf i).writtenRegs = writtenRegs i := by
  cases i <;> rfl

theorem storeAddr_bodyOf (s : State) (i : Instr) : (bodyOf i).storeAddr s = storeAddr s i := by
  cases i <;> rfl

theorem writesFlags_bodyOf (i : Instr) : (bodyOf i).writesFlags = writesFlags i := by
  cases i <;> rfl

/-- The instructions outside the stack group do not work on the SP. -/
theorem usesSp_bodyOf_eq_false {i : Instr} (hret : i ≠ .ret) (hreti : i ≠ .reti) (hcall : ∀ a, i ≠ .call a)
    (hldsp : ∀ n, i ≠ .ldsp n) : (bodyOf i).usesSp = false := by
  cases i with
  | ret => exact absurd rfl hret
  | reti => exact absurd rfl hreti
  | call a => exact absurd rfl (hcall a)
  | ldsp n => exact absurd rfl (hldsp n)
  | _ => rfl

theorem writesIef_bodyOf_eq_false {i : Instr} (hei : i ≠ .ei) (hdi : i ≠ .di) (hreti : i ≠ .reti) :
    (bodyOf i).writesIef = false := by
  cases i with
  | ei => exact absurd rfl hei
  | di => exact absurd rfl hdi
  | reti => exact absurd rfl hreti
  | _ => rfl

/-- `STOP` is the only instruction with the body that stops the core. -/
theorem eq_stop_of_bodyOf {i : Instr} (h : bodyOf i = .stop) : i = .stop := by
  cases i with
  | stop => rfl
  | _ => cases h

/-! ### What an instruction answers -/

theorem exec_of_run {i : Instr} {s t : State} (h : (bodyOf i).run (s.setPc (s.pc + BitVec.ofNat 8 i.length)) = .ok t) :
    exec i s = .next t :=
  (exec_eq_instruction i s).trans (instruction_ok h)

/-- An instruction answers its body's result, or the state it began in with an error raised (30_encoding.md R121). -/
theorem exec_cases {i : Instr} {s t : State} (h : exec i s = .next t) :
    (bodyOf i).run (s.setPc (s.pc + BitVec.ofNat 8 i.length)) = .ok t ∨ ∃ e, t = s.raise e := by
  rw [exec_eq_instruction] at h
  obtain hok | ⟨e, -, rfl⟩ := instruction_cases h
  · exact .inl hok
  · exact .inr ⟨e, rfl⟩

end Sys2Proof.Machine
end

section
/-! What a completed body can change, said once (`Body.Effect`, `Body.run_effect`), and the obligations about the flags
(10_state.md R26) and about the frame of every instruction from it. -/

namespace Sys2Proof.Machine

/-! ### Frame of a store -/

/-- The state after a store, where there is an address to store to. -/
def State.storeAt (s : State) (a : Option Byte) (v : Byte) : State :=
  match a with
  | none => s
  | some a => s.store a v

@[simp] theorem State.storeAt_req (s : State) (a : Option Byte) (v : Byte) : (s.storeAt a v).req = s.req := by
  cases a <;> simp [State.storeAt]

@[simp] theorem State.storeAt_prev (s : State) (a : Option Byte) (v : Byte) : (s.storeAt a v).prev = s.prev := by
  cases a <;> simp [State.storeAt]

@[simp] theorem State.storeAt_inputs (s : State) (a : Option Byte) (v : Byte) : (s.storeAt a v).inputs = s.inputs := by
  cases a <;> simp [State.storeAt]

@[simp] theorem State.storeAt_micro (s : State) (a : Option Byte) (v : Byte) : (s.storeAt a v).micro = s.micro := by
  cases a <;> simp [State.storeAt]

@[simp] theorem State.storeAt_boot (s : State) (a : Option Byte) (v : Byte) : (s.storeAt a v).boot = s.boot := by
  cases a <;> simp [State.storeAt]

theorem State.store_misr_of_ne (s : State) {a : Byte} (v : Byte) (h : region a ≠ .misr) : (s.store a v).misr = s.misr := by
  unfold State.store
  split <;> simp_all

theorem State.store_uio_of_ne (s : State) {a : Byte} (v : Byte) (h : region a ≠ .uio) :
    (s.store a v).uioVal = s.uioVal ∧ (s.store a v).uioDir = s.uioDir := by
  unfold State.store
  split <;> simp_all

theorem State.store_ram_read_of_ne (s : State) {a b : Byte} (v : Byte) (h : b ≠ a) :
    (s.store a v).ram.read b.toNat = s.ram.read b.toNat := by
  have hn : a.toNat ≠ b.toNat := fun e => h (BitVec.eq_of_toNat_eq e).symm
  unfold State.store
  split <;> simp [Memory.read_write_ne _ _ hn]

/-- A bus read shows a store to another address only where 0xF3 shows MISR (20_memory.md R65): every other region shows the
host's inputs or what lies behind its own address. -/
theorem State.store_busValue_of_ne (s : State) {a b : Byte} (v : Byte) (h : b ≠ a)
    (hmisr : ¬ (a = 0xF9#8 ∧ b = 0xF3#8)) : (s.store a v).busValue b = s.busValue b := by
  unfold State.busValue
  cases hb : region b with
  | ram => exact s.store_ram_read_of_ne v h
  | uio =>
    have ha : region a ≠ .uio := fun ha => h (region_register_unique (by rw [ha]; rfl) (by rw [hb]; rfl))
    obtain ⟨hval, hdir⟩ := s.store_uio_of_ne v ha
    simp [State.level, hval, hdir]
  | misr =>
    have ha : region a ≠ .misr := fun ha => h (region_register_unique (by rw [ha]; rfl) (by rw [hb]; rfl))
    exact s.store_misr_of_ne v ha
  | status =>
    have ha : region a ≠ .misr := fun ha =>
      hmisr ⟨region_address a _ (by rw [ha]; rfl), region_address b _ (by rw [hb]; rfl)⟩
    simp [s.store_misr_of_ne v ha]
  | f0 | f1 | nothing | port p => simp

theorem State.store_busRead_of_ne (s : State) {a b : Byte} (v : Byte) (h : b ≠ a)
    (hmisr : ¬ (a = 0xF9#8 ∧ b = 0xF3#8)) : (s.store a v).busRead b = s.busRead b := by
  simp [State.busRead, s.store_busValue_of_ne v h hmisr]

/-! ### Frame of a body -/

@[simp] theorem State.putPlace_flags (s : State) (p : Place) (v : Byte) : (s.putPlace p v).flags = s.flags := by
  cases p <;> simp [State.putPlace]

@[simp] theorem State.putPlace_run (s : State) (p : Place) (v : Byte) : (s.putPlace p v).run = s.run := by
  cases p <;> simp [State.putPlace]

theorem State.putPlace_reg_of_not_mem (s : State) {p : Place} {r : Reg} (v : Byte) (h : r ∉ p.regs) :
    (s.putPlace p v).reg r = s.reg r := by
  cases p with
  | reg d => exact s.setReg_reg_ne v (List.ne_of_not_mem_cons h)
  | mem a => exact s.store_reg a v r

/-- What a completed body may have changed between `s` and `t`. -/
structure Body.Effect (b : Body) (s t : State) : Prop where
  regs : ∀ r, r ≠ .r3 → r ∉ b.writtenRegs → t.reg r = s.reg r
  result : b.writesFlags = false → t.flags.cf = s.flags.cf ∧ t.flags.zf = s.flags.zf ∧ t.flags.nf = s.flags.nf
  ief : b.writesIef = false → t.flags.ief = s.flags.ief
  run : t.run = s.run ∨ b = .stop ∧ t.run = .stopped
  rest : ∃ v, t = { s.storeAt (b.storeAddr s) v with regs := t.regs, flags := t.flags, run := t.run }

/-- The common end of the ALU and bit bodies: a result perhaps written back, then the flags. -/
theorem Body.effect_of_finish {b : Body} {s : State} {wb : Bool} {p : Place} {v : Byte} {o : AluOut}
    (hregs : b.writtenRegs = if wb then p.regs else []) (haddr : b.storeAddr s = if wb then p.addr else none)
    (hflags : b.writesFlags = true) : b.Effect s ((if wb then s.putPlace p v else s).commitFlags o) where
  regs r _ hr := by
    cases wb with
    | false => rfl
    | true => rw [hregs] at hr; exact s.putPlace_reg_of_not_mem v hr
  result h := by rw [hflags] at h; cases h
  ief _ := by cases wb <;> simp [Flags.commit]
  run := .inl (by cases wb <;> simp)
  rest := by
    refine ⟨v, ?_⟩
    rw [haddr]
    cases wb with
    | false => rfl
    | true => cases p <;> rfl

/-- A completed body has its effect. -/
theorem Body.run_effect {b : Body} {s t : State} (h : b.run s = .ok t) : b.Effect s t := by
  cases b with
  | two fn useCf wb dst src =>
    obtain ⟨-, -, -, rfl⟩ := twoOp_ok_iff.1 h
    exact Body.effect_of_finish rfl rfl rfl
  | one fn rd wb p =>
    obtain ⟨-, -, rfl⟩ := oneOp_ok_iff.1 h
    exact Body.effect_of_finish rfl rfl rfl
  | bit fn wb p m =>
    obtain ⟨-, -, rfl⟩ := bitOp_ok_iff.1 h
    exact Body.effect_of_finish rfl rfl rfl
  | move dst src =>
    obtain ⟨-, -, rfl⟩ := moveOp_ok_iff.1 h
    exact {
      regs := fun r _ hr => s.putPlace_reg_of_not_mem _ hr
      result := fun _ => by simp
      ief := fun _ => by simp
      run := .inl (by simp)
      rest := ⟨s.operandValue src, by cases dst <;> rfl⟩ }
  | jump cond c =>
    cases h
    exact {
      regs := fun r hr _ => by split; exacts [s.setPc_reg_ne c hr, rfl]
      result := fun _ => by split <;> simp
      ief := fun _ => by split <;> simp
      run := .inl (by split <;> simp)
      rest := ⟨0, by split <;> rfl⟩ }
  | call c =>
    obtain ⟨-, rfl⟩ := callOp_ok_iff.1 h
    exact {
      regs := fun r hpc hsp => by
        rw [State.setPc_reg_ne _ _ hpc, State.setSp_eq_setReg, State.setReg_reg_ne _ _ (List.ne_of_not_mem_cons hsp),
          State.store_reg]
      result := fun _ => by simp
      ief := fun _ => by simp
      run := .inl (by simp)
      rest := ⟨s.pc, rfl⟩ }
  | ldsp n =>
    cases h
    exact {
      regs := fun r _ hsp => s.setReg_reg_ne n (List.ne_of_not_mem_cons hsp)
      result := fun _ => ⟨rfl, rfl, rfl⟩
      ief := fun _ => rfl
      run := .inl rfl
      rest := ⟨0, rfl⟩ }
  | ret =>
    obtain ⟨-, rfl⟩ := returnOp_ok_iff.1 h
    exact {
      regs := fun r hpc hsp =>
        (State.setPc_reg_ne _ _ hpc).trans (s.setReg_reg_ne _ (List.ne_of_not_mem_cons hsp))
      result := fun _ => ⟨rfl, rfl, rfl⟩
      ief := fun _ => rfl
      run := .inl rfl
      rest := ⟨0, rfl⟩ }
  | reti =>
    obtain ⟨-, rfl⟩ := State.returnFromInterrupt_ok_iff.1 h
    exact {
      regs := fun r hpc hsp =>
        (State.setPc_reg_ne _ _ hpc).trans (s.setReg_reg_ne _ (List.ne_of_not_mem_cons hsp))
      result := fun _ => ⟨rfl, rfl, rfl⟩
      ief := nofun
      run := .inl rfl
      rest := ⟨0, rfl⟩ }
  | nop => cases h; exact ⟨fun _ _ _ => rfl, fun _ => ⟨rfl, rfl, rfl⟩, fun _ => rfl, .inl rfl, 0, rfl⟩
  | stop => cases h; exact ⟨fun _ _ _ => rfl, fun _ => ⟨rfl, rfl, rfl⟩, fun _ => rfl, .inr ⟨rfl, rfl⟩, 0, rfl⟩
  | ei => cases h; exact ⟨fun _ _ _ => rfl, fun _ => ⟨rfl, rfl, rfl⟩, nofun, .inl rfl, 0, rfl⟩
  | di => cases h; exact ⟨fun _ _ _ => rfl, fun _ => ⟨rfl, rfl, rfl⟩, nofun, .inl rfl, 0, rfl⟩

/-! ### Effect of an instruction -/

theorem State.storeAt_setReg (s : State) (r : Reg) (v : Byte) (a : Option Byte) (w : Byte) :
    (s.setReg r v).storeAt a w = (s.storeAt a w).setReg r v := by
  cases a with
  | none => rfl
  | some a => exact s.store_setReg r v a w

theorem Body.storeAddr_setPc (b : Body) (s : State) (v : Byte) : b.storeAddr (s.setPc v) = b.storeAddr s := by
  cases b <;> rfl

/-- An effect does not speak of the PC, so it may be read from before the PC update. -/
theorem Body.Effect.of_setPc {b : Body} {s t : State} {v : Byte} (h : b.Effect (s.setPc v) t) : b.Effect s t where
  regs r hpc hr := (h.regs r hpc hr).trans (s.setPc_reg_ne v hpc)
  result := h.result
  ief := h.ief
  run := h.run
  rest := by
    obtain ⟨w, hw⟩ := h.rest
    rw [b.storeAddr_setPc, State.setPc_eq_setReg, State.storeAt_setReg] at hw
    exact ⟨w, hw⟩

/-- Everything an instruction can answer: the effect of its body, or the error raised in the state it began in. -/
theorem exec_effect {i : Instr} {s t : State} (h : exec i s = .next t) :
    (bodyOf i).Effect s t ∨ ∃ e, t = s.raise e :=
  (exec_cases h).imp_left fun hok => (Body.run_effect hok).of_setPc

/-! ### The flags -/

theorem exec_result_flags_of_not_writesFlags {i : Instr} {s t : State} (h : exec i s = .next t)
    (hi : writesFlags i = false) : t.flags.cf = s.flags.cf ∧ t.flags.zf = s.flags.zf ∧ t.flags.nf = s.flags.nf := by
  obtain heff | ⟨e, rfl⟩ := exec_effect h
  · exact heff.result ((writesFlags_bodyOf i).trans hi)
  · exact ⟨rfl, rfl, rfl⟩

theorem exec_ief_of_ne {i : Instr} {s t : State} (h : exec i s = .next t) (hei : i ≠ .ei) (hdi : i ≠ .di)
    (hreti : i ≠ .reti) : t.flags.ief = s.flags.ief := by
  obtain heff | ⟨e, rfl⟩ := exec_effect h
  · exact heff.ief (writesIef_bodyOf_eq_false hei hdi hreti)
  · rfl

theorem exec_ei_ief {s t : State} (h : exec .ei s = .next t) : t.flags.ief = true := by
  cases h
  rfl

theorem exec_di_ief {s t : State} (h : exec .di s = .next t) : t.flags.ief = false := by
  cases h
  rfl

/-- A `RETI` whose pop is allowed completes, and then IEF is set. -/
theorem exec_reti_ief {s t : State} (h : exec .reti s = .next t) (hr : s.Readable s.sp) : t.flags.ief = true := by
  have hret := exec_of_run (i := .reti) (State.returnFromInterrupt_ok_iff.2 ⟨hr, rfl⟩)
  cases hret.symm.trans h
  rfl

theorem State.enterInterrupt_flags {s t : State} {i : Source} (h : s.enterInterrupt i = .ok t) :
    t.flags = { s.flags with ief := false } := by
  obtain ⟨-, rfl⟩ := State.enterInterrupt_ok_iff.1 h
  simp

/-- Settles O15: the result flags and IEF by the effect of the body, and the writers of IEF one by one. -/
theorem flagWriters : Obligations.FlagWriters :=
  ⟨fun _ _ _ h hi => exec_result_flags_of_not_writesFlags h hi,
    fun _ _ _ h hei hdi hreti => exec_ief_of_ne h hei hdi hreti,
    fun _ _ h => exec_ei_ief h, fun _ _ h => exec_di_ief h, fun _ _ h hr => exec_reti_ief h hr,
    fun _ _ _ h => State.enterInterrupt_flags h⟩

/-! ### The frame of an instruction -/

theorem Body.Effect.ram_and_latches {b : Body} {s t : State} (h : b.Effect s t) (ha : b.storeAddr s = none) :
    t.ram = s.ram ∧ t.misr = s.misr ∧ t.uioVal = s.uioVal ∧ t.uioDir = s.uioDir ∧ t.ao1 = s.ao1 ∧ t.ao2 = s.ao2 ∧
      t.out = s.out := by
  obtain ⟨v, ht⟩ := h.rest
  rw [ha] at ht
  rw [ht]
  exact ⟨rfl, rfl, rfl, rfl, rfl, rfl, rfl⟩

theorem Body.Effect.cell {b : Body} {s t : State} (h : b.Effect s t) {a c : Byte} (ha : b.storeAddr s = some a)
    (hc : c ≠ a) : t.cell c = s.cell c := by
  obtain ⟨v, ht⟩ := h.rest
  rw [ha] at ht
  rw [ht]
  exact s.store_cell_ne v hc

theorem Body.Effect.busRead_of_none {b : Body} {s t : State} (h : b.Effect s t) (ha : b.storeAddr s = none) (c : Byte) :
    t.busRead c = s.busRead c := by
  obtain ⟨v, ht⟩ := h.rest
  rw [ha] at ht
  rw [ht]
  rfl

theorem Body.Effect.busRead_of_some {b : Body} {s t : State} (h : b.Effect s t) {a c : Byte}
    (ha : b.storeAddr s = some a) (hc : c ≠ a) (hmisr : ¬ (a = 0xF9#8 ∧ c = 0xF3#8)) : t.busRead c = s.busRead c := by
  obtain ⟨v, ht⟩ := h.rest
  rw [ha] at ht
  rw [ht]
  exact s.store_busRead_of_ne v hc hmisr

theorem Body.Effect.untouched {b : Body} {s t : State} (h : b.Effect s t) :
    t.inputs = s.inputs ∧ t.req = s.req ∧ t.prev = s.prev ∧ t.micro = s.micro ∧ t.boot = s.boot := by
  obtain ⟨v, ht⟩ := h.rest
  rw [ht]
  simp

/-- Settles O16: an instruction that raises changes the run state only; one that completes has the effect of its body. -/
theorem instructionFrame : Obligations.InstructionFrame := by
  intro i s t h
  obtain heff | ⟨e, rfl⟩ := exec_effect h
  · obtain ⟨hinputs, hreq, hprev, hmicro, hboot⟩ := heff.untouched
    rw [← writtenRegs_bodyOf, ← storeAddr_bodyOf]
    exact ⟨heff.regs, heff.ram_and_latches, heff.busRead_of_none,
      fun a ha c hc => ⟨heff.cell ha hc, heff.busRead_of_some ha hc⟩, hinputs, hreq, hprev, hmicro, hboot,
      heff.run.imp_right fun ⟨hstop, hrun⟩ => .inl ⟨eq_stop_of_bodyOf hstop, hrun⟩⟩
  · exact ⟨fun _ _ _ => rfl, fun _ => ⟨rfl, rfl, rfl, rfl, rfl, rfl, rfl⟩, fun _ _ => rfl,
      fun _ _ _ _ => ⟨rfl, fun _ => rfl⟩, rfl, rfl, rfl, rfl, rfl, .inr (.inr ⟨e, rfl⟩)⟩

end Sys2Proof.Machine
end

section
/-! A register that a step neither reads nor writes (10_state.md R23). Every operation of a step commutes with writing such a
register (`Body.run_setReg`, `exec_setReg`, `step_setReg`): it does the same and leaves the value there. That the register is
not written follows from the same equation, taken with the value the register has. -/

namespace Sys2Proof.Machine

/-! ### State operations -/

theorem State.setReg_setReg_comm (s : State) {r q : Reg} (v w : Byte) (h : r ≠ q) :
    (s.setReg r v).setReg q w = (s.setReg q w).setReg r v :=
  congrArg (fun b => { s with regs := b }) (s.regs.set_set_comm v w h.symm)

theorem State.setReg_reg_self (s : State) (r : Reg) : s.setReg r (s.reg r) = s :=
  congrArg (fun b => { s with regs := b }) (s.regs.set_get_self r)

/-- A state that a write of a register's old value does not change has that value in the register. -/
theorem State.reg_eq_of_setReg_eq {t : State} {r : Reg} {v : Byte} (h : t.setReg r v = t) : t.reg r = v := by
  rw [← h, State.setReg_reg_same]

theorem State.setReg_pc_of_ne (s : State) {r : Reg} (v : Byte) (h : r ≠ .r3) : (s.setReg r v).pc = s.pc :=
  s.setReg_reg_ne v h.symm

theorem State.setReg_sp_of_ne (s : State) {r : Reg} (v : Byte) (h : r ≠ .r4) : (s.setReg r v).sp = s.sp :=
  s.setReg_reg_ne v h.symm

theorem State.setPc_setReg_comm (s : State) {r : Reg} (v w : Byte) (h : r ≠ .r3) :
    (s.setReg r v).setPc w = (s.setPc w).setReg r v :=
  s.setReg_setReg_comm v w h

theorem State.setSp_setReg_comm (s : State) {r : Reg} (v w : Byte) (h : r ≠ .r4) :
    (s.setReg r v).setSp w = (s.setSp w).setReg r v :=
  s.setReg_setReg_comm v w h

/-- A result with a register of its state written. -/
abbrev withReg (r : Reg) (v : Byte) (x : Except Fault State) : Except Fault State := x.map (·.setReg r v)

/-- A chain commutes with a register write when its second part does at every answer of the first. -/
theorem bind_setReg {r : Reg} {v : Byte} {α : Type} (x : Except Fault α) {f g : α → Except Fault State}
    (h : ∀ a, g a = withReg r v (f a)) : (x >>= g) = withReg r v (x >>= f) := by
  cases x with
  | ok a => exact h a
  | error e => rfl

theorem withReg_bind {r : Reg} {v : Byte} (x : Except Fault State) {f : State → Except Fault State}
    (h : ∀ t, f (t.setReg r v) = withReg r v (f t)) : (withReg r v x >>= f) = withReg r v (x >>= f) := by
  cases x with
  | ok t => exact h t
  | error e => rfl

theorem State.orRaise_setReg (s : State) (r : Reg) (v : Byte) (x : Except Fault State) :
    (s.setReg r v).orRaise (withReg r v x) = (s.orRaise x).setReg r v := by
  cases x <;> rfl

/-! ### Bus, stack and interrupt entry -/

theorem State.busWrite_setReg (s : State) (r : Reg) (v a w : Byte) (k : WriteKind) :
    (s.setReg r v).busWrite a w k = withReg r v (s.busWrite a w k) := by
  unfold State.busWrite
  rw [State.setReg_boot, State.store_setReg]
  cases s.boot.writeCheck a k <;> rfl

theorem State.push_setReg (s : State) {r : Reg} (v w : Byte) (h : r ≠ .r4) :
    (s.setReg r v).push w = withReg r v (s.push w) := by
  simp only [State.push, State.setReg_sp_of_ne _ v h, State.setSp_setReg_comm _ v _ h, State.busWrite_setReg]

theorem State.enterInterrupt_setReg (s : State) {r : Reg} (v : Byte) (i : Source) (hpc : r ≠ .r3) (hsp : r ≠ .r4) :
    (s.setReg r v).enterInterrupt i = withReg r v (s.enterInterrupt i) := by
  unfold State.enterInterrupt
  rw [s.setReg_pc_of_ne v hpc, s.push_setReg v _ hsp]
  exact withReg_bind _ fun t => congrArg Except.ok <| State.setPc_setReg_comm
    { t.setIef false with misr := setPending t.misr i, req := t.req.set i false } v _ hpc

theorem State.fetch_setReg (s : State) {r : Reg} (v : Byte) (h : r ≠ .r3) : (s.setReg r v).fetch = s.fetch := by
  unfold State.fetch State.fetchOperand
  rw [s.setReg_pc_of_ne v h]
  rfl

theorem returnOp_eq (s : State) : returnOp s = (s.busRead s.sp).map fun w => (s.setSp (s.sp + 1)).setPc w := by
  unfold returnOp State.pop
  cases s.busRead s.sp <;> rfl

theorem State.returnFromInterrupt_eq (s : State) : s.returnFromInterrupt = (returnOp s).map (·.setIef true) := by
  unfold State.returnFromInterrupt returnOp
  cases s.pop <;> rfl

theorem returnOp_setReg {r : Reg} (v : Byte) (hpc : r ≠ .r3) (hsp : r ≠ .r4) (s : State) :
    returnOp (s.setReg r v) = withReg r v (returnOp s) := by
  rw [returnOp_eq, returnOp_eq, s.setReg_sp_of_ne v hsp, s.setSp_setReg_comm v _ hsp, State.setReg_busRead]
  cases s.busRead s.sp with
  | ok w => exact congrArg Except.ok (State.setPc_setReg_comm _ v w hpc)
  | error e => rfl

theorem State.returnFromInterrupt_setReg {r : Reg} (v : Byte) (hpc : r ≠ .r3) (hsp : r ≠ .r4) (s : State) :
    (s.setReg r v).returnFromInterrupt = withReg r v s.returnFromInterrupt := by
  rw [State.returnFromInterrupt_eq, State.returnFromInterrupt_eq, returnOp_setReg v hpc hsp]
  cases returnOp s <;> rfl

/-! ### Operands -/

theorem State.readPlace_setReg (s : State) {r : Reg} (v : Byte) {p : Place} (h : r ∉ p.regs) :
    (s.setReg r v).readPlace p = s.readPlace p := by
  cases p with
  | reg q => exact congrArg Except.ok (s.setReg_reg_ne v (List.ne_of_not_mem_cons h).symm)
  | mem a => rfl

theorem State.readOperand_setReg (s : State) {r : Reg} (v : Byte) {o : Operand} (h : r ∉ o.regs) :
    (s.setReg r v).readOperand o = s.readOperand o := by
  cases o with
  | place p => exact s.readPlace_setReg v h
  | imm n => rfl

theorem State.writePlace_setReg (s : State) {r : Reg} (v w : Byte) {p : Place} (h : r ∉ p.regs) :
    (s.setReg r v).writePlace p w = withReg r v (s.writePlace p w) := by
  cases p with
  | reg q => exact congrArg Except.ok (s.setReg_setReg_comm v w (List.ne_of_not_mem_cons h))
  | mem a => exact s.busWrite_setReg r v a w .data

theorem State.finish_setReg (s : State) {r : Reg} (v : Byte) {p : Place} (wb : Bool) (o : AluOut) (h : r ∉ p.regs) :
    (s.setReg r v).finish p wb o = withReg r v (s.finish p wb o) := by
  unfold State.finish
  cases wb with
  | false => rfl
  | true =>
    simp only [if_true]
    rw [s.writePlace_setReg v _ h]
    exact withReg_bind _ fun t => rfl

/-! ### Bodies and instructions -/

/-- A body does the same with another value in a register it does not use, and leaves that value. -/
theorem Body.run_setReg {b : Body} {r : Reg} (hpc : r ≠ .r3) (hnamed : r ∉ b.namedRegs)
    (hsp : b.usesSp = true → r ≠ .r4) (v : Byte) (s : State) : b.run (s.setReg r v) = withReg r v (b.run s) := by
  cases b with
  | two fn useCf wb dst src =>
    obtain ⟨hdst, hsrc⟩ := not_or.1 (mt List.mem_append.2 hnamed)
    show twoOp fn useCf wb dst src _ = withReg r v (twoOp fn useCf wb dst src s)
    unfold twoOp
    rw [s.readPlace_setReg v hdst, s.readOperand_setReg v hsrc]
    exact bind_setReg _ fun x => bind_setReg _ fun y => s.finish_setReg v wb _ hdst
  | one fn rd wb p =>
    show oneOp fn rd wb p _ = withReg r v (oneOp fn rd wb p s)
    unfold oneOp
    rw [s.readPlace_setReg v hnamed]
    cases rd with
    | false => exact s.finish_setReg v wb _ hnamed
    | true => exact bind_setReg _ fun x => s.finish_setReg v wb _ hnamed
  | bit fn wb p m =>
    show bitOp fn wb p m _ = withReg r v (bitOp fn wb p m s)
    unfold bitOp
    rw [s.readPlace_setReg v hnamed]
    exact bind_setReg _ fun x => s.finish_setReg v wb _ hnamed
  | move dst src =>
    obtain ⟨hdst, hsrc⟩ := not_or.1 (mt List.mem_append.2 hnamed)
    show moveOp dst src _ = withReg r v (moveOp dst src s)
    unfold moveOp
    rw [s.readOperand_setReg v hsrc]
    exact bind_setReg _ fun x => s.writePlace_setReg v x hdst
  | jump cond c =>
    show jumpIf _ c _ = withReg r v (jumpIf _ c s)
    unfold jumpIf
    rw [s.setPc_setReg_comm v c hpc]
    exact congrArg Except.ok (apply_ite (State.setReg · r v) _ _ _).symm
  | call c =>
    show callOp c _ = withReg r v (callOp c s)
    unfold callOp
    rw [s.setReg_pc_of_ne v hpc, s.push_setReg v _ (hsp rfl)]
    exact withReg_bind _ fun t => congrArg Except.ok (t.setPc_setReg_comm v c hpc)
  | ldsp n => exact congrArg Except.ok (s.setSp_setReg_comm v n (hsp rfl))
  | ret => exact returnOp_setReg v hpc (hsp rfl) s
  | reti => exact State.returnFromInterrupt_setReg v hpc (hsp rfl) s
  | nop | stop | ei | di => rfl

theorem exec_setReg {i : Instr} {s t : State} {r : Reg} (hpc : r ≠ .r3) (hnamed : r ∉ i.namedRegs)
    (hsp : (bodyOf i).usesSp = true → r ≠ .r4) (v : Byte) (h : exec i s = .next t) :
    exec i (s.setReg r v) = .next (t.setReg r v) := by
  rw [exec_eq_instruction] at h ⊢
  rw [← namedRegs_bodyOf] at hnamed
  cases h
  unfold instruction
  rw [s.setReg_pc_of_ne v hpc, s.setPc_setReg_comm v _ hpc, Body.run_setReg hpc hnamed hsp, State.orRaise_setReg]

/-- Where writing its own value to a register commutes with a step, the step leaves the register. -/
theorem reg_eq_of_next_setReg {f : State → Host.Outcome State Fault Refusal} {s t : State} {r : Reg}
    (h : f s = .next t) (hset : f (s.setReg r (s.reg r)) = .next (t.setReg r (s.reg r))) : t.reg r = s.reg r := by
  rw [State.setReg_reg_self, h] at hset
  exact State.reg_eq_of_setReg_eq (Host.Outcome.next.inj hset).symm

/-! ### What the decoder names (30_encoding.md R106) -/

theorem nameable_ofField (v : BitVec 2) : (Reg.ofField v).nameable = true := by
  unfold Reg.ofField
  split <;> rfl

@[simp] theorem nameable_lowReg (b : Byte) : (lowReg b).nameable = true := nameable_ofField _

@[simp] theorem nameable_highReg (b : Byte) : (highReg b).nameable = true := nameable_ofField _

theorem wellFormed_iff {i : Instr} : i.WellFormed ↔ ∀ r ∈ i.namedRegs, r.nameable = true :=
  List.all_eq_true

/-- A register that no field names is no operand of a well-formed instruction. -/
theorem not_mem_namedRegs {i : Instr} {r : Reg} (hi : i.WellFormed) (hr : r.nameable = false) : r ∉ i.namedRegs :=
  fun hmem => Bool.false_ne_true (hr.symm.trans (wellFormed_iff.1 hi r hmem))

/-- The six forms of a two-operand instruction name the registers of their operands. -/
def ModesName (rr : Reg → Reg → Instr) (ri rm : Reg → Byte → Instr) (mr : Byte → Reg → Instr)
    (mm mi : Byte → Byte → Instr) : Prop :=
  (∀ d r, (rr d r).namedRegs = [d, r]) ∧ (∀ d n, (ri d n).namedRegs = [d]) ∧ (∀ d a, (rm d a).namedRegs = [d]) ∧
    (∀ a r, (mr a r).namedRegs = [r]) ∧ (∀ a b, (mm a b).namedRegs = []) ∧ ∀ a n, (mi a n).namedRegs = []

theorem decodeModes_wellFormed {rr : Reg → Reg → Instr} {ri rm : Reg → Byte → Instr} {mr : Byte → Reg → Instr}
    {mm mi : Byte → Byte → Instr} {mode : Nat} {b1 b2 : Byte} {i : Instr} (hn : ModesName rr ri rm mr mm mi)
    (h : decodeModes rr ri rm mr mm mi mode b1 b2 = some i) : i.WellFormed := by
  obtain ⟨hrr, hri, hrm, hmr, hmm, hmi⟩ := hn
  unfold decodeModes at h
  split at h <;> cases h
  · exact wellFormed_iff.2 (by simp [hrr])
  · exact wellFormed_iff.2 (by simp [hri])
  · exact wellFormed_iff.2 (by simp [hrm])
  · exact wellFormed_iff.2 (by simp [hmr])
  · exact wellFormed_iff.2 (by simp [hmm])
  · exact wellFormed_iff.2 (by simp [hmi])

theorem decodeTwo_wellFormed {b0 b1 b2 : Byte} {i : Instr} (h : decodeTwo b0 b1 b2 = some i) : i.WellFormed := by
  unfold decodeTwo at h
  simp only at h
  split at h
  case h_10 => cases h
  all_goals
    refine decodeModes_wellFormed ?_ h
    exact ⟨fun _ _ => rfl, fun _ _ => rfl, fun _ _ => rfl, fun _ _ => rfl, fun _ _ => rfl, fun _ _ => rfl⟩

theorem decodeUnary_wellFormed {b0 b1 : Byte} {i : Instr} (h : decodeUnary b0 b1 = some i) : i.WellFormed := by
  unfold decodeUnary at h
  split at h <;> cases h <;> exact wellFormed_iff.2 (by simp [Instr.namedRegs])

theorem decodeBit_wellFormed {b0 b1 b2 : Byte} {i : Instr} (h : decodeBit b0 b1 b2 = some i) : i.WellFormed := by
  unfold decodeBit at h
  split at h <;> cases h <;> exact wellFormed_iff.2 (by simp [Instr.namedRegs])

theorem decodeControl_wellFormed {b0 b1 : Byte} {i : Instr} (h : decodeControl b0 b1 = some i) : i.WellFormed := by
  unfold decodeControl at h
  split at h <;> cases h <;> rfl

theorem decodeInstr_wellFormed {b0 b1 b2 : Byte} {i : Instr} (h : decodeInstr b0 b1 b2 = some i) : i.WellFormed := by
  unfold decodeInstr at h
  split_ifs at h
  · exact decodeTwo_wellFormed h
  · exact decodeUnary_wellFormed h
  · exact decodeBit_wellFormed h
  · cases h; rfl
  · exact decodeControl_wellFormed h

theorem State.fetch_wellFormed {s : State} {i : Instr} (h : s.fetch = .ok i) : i.WellFormed := by
  unfold State.fetch at h
  obtain ⟨b0, -, h⟩ := except_bind_eq_ok.1 h
  split at h
  · cases h
  · obtain ⟨b1, -, h⟩ := except_bind_eq_ok.1 h
    obtain ⟨b2, -, h⟩ := except_bind_eq_ok.1 h
    split at h
    · cases h
    · cases h
      exact decodeInstr_wellFormed ‹_›

/-! ### Steps -/

theorem exec_setReg_of_wellFormed {i : Instr} {s t : State} {r : Reg} (hi : i.WellFormed) (hr : r.nameable = false)
    (hsp : (bodyOf i).usesSp = true → r ≠ .r4) (v : Byte) (h : exec i s = .next t) :
    exec i (s.setReg r v) = .next (t.setReg r v) :=
  exec_setReg (by rintro rfl; cases hr) (not_mem_namedRegs hi hr) hsp v h

theorem step_of_running {s : State} (h : s.run = .running) : step s = stepRunning s := by
  simp only [step, h]

theorem stepRunning_of_due {s : State} {i : Source} (h : s.sampleInputs.dueSource = some i) :
    stepRunning s = .next (s.sampleInputs.orRaise (s.sampleInputs.enterInterrupt i)) := by
  simp only [stepRunning, h]

theorem stepRunning_of_fetch_error {s : State} {e : Fault} (hdue : s.sampleInputs.dueSource = none)
    (h : s.sampleInputs.fetch = .error e) : stepRunning s = .next (s.sampleInputs.raise e) := by
  simp only [stepRunning, hdue, h]

theorem stepRunning_of_fetch_ok {s : State} {i : Instr} (hdue : s.sampleInputs.dueSource = none)
    (h : s.sampleInputs.fetch = .ok i) : stepRunning s = exec i s.sampleInputs := by
  simp only [stepRunning, hdue, h]

theorem State.sampleInputs_setReg (s : State) (r : Reg) (v : Byte) :
    (s.setReg r v).sampleInputs = s.sampleInputs.setReg r v := rfl

theorem State.dueSource_setReg (s : State) (r : Reg) (v : Byte) : (s.setReg r v).dueSource = s.dueSource := rfl

/-- A step in `Running`, by the three ways it can go: interrupt entry, a fetch that raises, an instruction. -/
theorem stepRunning_setReg {s t : State} {r : Reg} (hr : r.nameable = false) (hsp : r ≠ .r4) (v : Byte)
    (h : stepRunning s = .next t) : stepRunning (s.setReg r v) = .next (t.setReg r v) := by
  have hpc : r ≠ .r3 := by rintro rfl; cases hr
  have hdue' : (s.setReg r v).sampleInputs.dueSource = s.sampleInputs.dueSource := s.sampleInputs.dueSource_setReg r v
  have hfetch' : (s.setReg r v).sampleInputs.fetch = s.sampleInputs.fetch := s.sampleInputs.fetch_setReg v hpc
  cases hdue : s.sampleInputs.dueSource with
  | some i =>
    rw [stepRunning_of_due hdue] at h
    cases h
    rw [stepRunning_of_due (hdue'.trans hdue), State.sampleInputs_setReg, State.enterInterrupt_setReg _ v i hpc hsp,
      State.orRaise_setReg]
  | none =>
    cases hfetch : s.sampleInputs.fetch with
    | error e =>
      rw [stepRunning_of_fetch_error hdue hfetch] at h
      cases h
      exact stepRunning_of_fetch_error (hdue'.trans hdue) (hfetch'.trans hfetch)
    | ok i =>
      rw [stepRunning_of_fetch_ok hdue hfetch] at h
      rw [stepRunning_of_fetch_ok (hdue'.trans hdue) (hfetch'.trans hfetch)]
      exact exec_setReg_of_wellFormed (State.fetch_wellFormed hfetch) hr (fun _ => hsp) v h

theorem step_setReg {s t : State} {r : Reg} (hr : r.nameable = false) (hsp : r ≠ .r4) (v : Byte)
    (h : step s = .next t) : step (s.setReg r v) = .next (t.setReg r v) := by
  by_cases hrun : s.run = .running
  · rw [step_of_running hrun] at h
    exact (step_of_running (s := s.setReg r v) hrun).trans (stepRunning_setReg hr hsp v h)
  · rw [step_of_not_running hrun] at h
    cases h
    exact step_of_not_running hrun

/-- `LDSP` overwrites the SP without reading it. -/
theorem exec_ldsp_setReg_sp (s : State) (n v : Byte) : exec (.ldsp n) (s.setReg .r4 v) = exec (.ldsp n) s := rfl

/-- Settles O14: R5 to R7 are no operand of a decoded instruction and not the SP; R4 is no operand either, and only the stack
group works on the SP. -/
theorem hiddenRegisters : Obligations.HiddenRegisters := by
  refine ⟨fun s t r v hr h => ?_, fun i s t v hi hret hreti hcall hldsp h => ?_, exec_ldsp_setReg_sp⟩
  · have hset : ∀ w, step (s.setReg r w) = .next (t.setReg r w) := fun w => by
      obtain rfl | rfl | rfl := hr <;> exact step_setReg rfl (by decide) w h
    exact ⟨reg_eq_of_next_setReg h (hset _), hset v⟩
  · have hsp : (bodyOf i).usesSp = true → Reg.r4 ≠ .r4 := fun huses =>
      absurd huses (by simp [usesSp_bodyOf_eq_false hret hreti hcall hldsp])
    have hset : ∀ w, exec i (s.setReg .r4 w) = .next (t.setReg .r4 w) := fun w =>
      exec_setReg_of_wellFormed hi rfl hsp w h
    exact ⟨reg_eq_of_next_setReg h (hset _), hset v⟩

end Sys2Proof.Machine
end

section
/-! The host's inputs and what boot recorded stay (10_state.md R33, R37): each way to advance the machine, of either level,
relates its end to its start by `SameSetup`. -/

namespace Sys2Proof.Machine

/-- Two states with the same boot record and the same inputs. -/
structure SameSetup (s t : State) : Prop where
  boot_eq : t.boot = s.boot
  inputs_eq : t.inputs = s.inputs

@[refl] theorem SameSetup.refl (s : State) : SameSetup s s := ⟨rfl, rfl⟩

theorem SameSetup.trans {s t u : State} (h : SameSetup s t) (h' : SameSetup t u) : SameSetup s u :=
  ⟨h'.boot_eq.trans h.boot_eq, h'.inputs_eq.trans h.inputs_eq⟩

/-- A precise step keeps the setup where its body does: an error leaves it. -/
theorem SameSetup.orRaise {s : State} {x : Except Fault State} (h : ∀ t, x = .ok t → SameSetup s t) :
    SameSetup s (s.orRaise x) := by
  cases x with
  | ok t => exact h t rfl
  | error e => exact ⟨rfl, rfl⟩

/-! ### The I-level -/

theorem enterInterrupt_sameSetup {s t : State} {i : Source} (h : s.enterInterrupt i = .ok t) : SameSetup s t := by
  obtain ⟨-, rfl⟩ := State.enterInterrupt_ok_iff.1 h
  constructor <;> simp

theorem exec_sameSetup {i : Instr} {s t : State} (h : exec i s = .next t) : SameSetup s t := by
  obtain heff | ⟨e, rfl⟩ := exec_effect h
  · obtain ⟨hinputs, -, -, -, hboot⟩ := heff.untouched
    exact ⟨hboot, hinputs⟩
  · exact ⟨rfl, rfl⟩

theorem stepRunning_sameSetup {s t : State} (h : stepRunning s = .next t) : SameSetup s t := by
  have hsample : SameSetup s s.sampleInputs := ⟨rfl, rfl⟩
  refine hsample.trans ?_
  cases hdue : s.sampleInputs.dueSource with
  | some i =>
    cases (stepRunning_of_due hdue).symm.trans h
    exact SameSetup.orRaise fun _ => enterInterrupt_sameSetup
  | none =>
    cases hfetch : s.sampleInputs.fetch with
    | error e =>
      cases (stepRunning_of_fetch_error hdue hfetch).symm.trans h
      exact ⟨rfl, rfl⟩
    | ok i => exact exec_sameSetup ((stepRunning_of_fetch_ok hdue hfetch).symm.trans h)

theorem step_sameSetup {s t : State} (h : step s = .next t) : SameSetup s t := by
  by_cases hrun : s.run = .running
  · exact stepRunning_sameSetup ((step_of_running hrun).symm.trans h)
  · cases (step_of_not_running hrun).symm.trans h
    rfl

/-! ### The M-level -/

theorem readHalf_sameSetup {p : MicroParams} {s t : State} (h : readHalf p s = .ok t) : SameSetup s t := by
  unfold readHalf at h
  simp only at h
  split at h
  · cases h
  · obtain ⟨d, -, h⟩ := except_bind_eq_ok.1 h
    cases h
    exact ⟨rfl, rfl⟩

theorem commitFetch_sameSetup {p : MicroParams} {slice : BitVec 2} {s t : State} (h : commitFetch p slice s = .ok t) :
    SameSetup s t := by
  obtain ⟨i, -, hentry⟩ | ⟨-, -, -, rfl⟩ := commitFetch_ok_cases h
  · exact enterInterrupt_sameSetup hentry
  · exact ⟨rfl, rfl⟩

theorem commitBus_sameSetup {w : ControlWord} {s t : State} (h : commitBus w s = .ok t) : SameSetup s t := by
  have ht := commitBus_ok_iff.1 h
  split at ht
  · obtain ⟨-, rfl⟩ := ht
    constructor <;> simp
  · rw [ht]

theorem commitRegister_sameSetup (w : ControlWord) (s : State) : SameSetup s (commitRegister w s) := by
  unfold commitRegister
  split <;> exact ⟨rfl, rfl⟩

theorem commitMicroFlags_sameSetup (w : ControlWord) (s : State) : SameSetup s (commitMicroFlags w s) := by
  unfold commitMicroFlags
  repeat' split
  all_goals exact ⟨rfl, rfl⟩

/-- The end of every commit half. -/
theorem commitHalt_setPhase_sameSetup (halt : Bool) (s : State) (ph : Phase) :
    SameSetup s ((commitHalt halt s).setPhase ph) := by
  cases halt <;> exact ⟨rfl, rfl⟩

theorem commitHalf_sameSetup {p : MicroParams} {s t : State} (h : commitHalf p s = .ok t) : SameSetup s t := by
  unfold commitHalf at h
  simp only at h
  split at h
  · cases h
  · obtain ⟨u, hu, h⟩ := except_bind_eq_ok.1 h
    cases h
    exact (commitFetch_sameSetup hu).trans (commitHalt_setPhase_sameSetup _ u .read)
  · obtain ⟨u, hu, h⟩ := except_bind_eq_ok.1 h
    cases h
    have hreg := commitRegister_sameSetup (s.controlWord p) u
    have hflags := commitMicroFlags_sameSetup (s.controlWord p) (commitRegister (s.controlWord p) u)
    have hmp : ∀ (v : State) a, SameSetup v (v.setMp a) := fun _ _ => ⟨rfl, rfl⟩
    exact ((((commitBus_sameSetup hu).trans hreg).trans hflags).trans (hmp _ _)).trans
      (commitHalt_setPhase_sameSetup _ _ .read)

theorem tickHalfCycle_sameSetup (p : MicroParams) (s : State) : SameSetup s (tickHalfCycle p s) := by
  by_cases hrun : s.run = .running
  · simp only [tickHalfCycle, hrun]
    split
    · exact SameSetup.orRaise fun _ => readHalf_sameSetup
    · exact SameSetup.orRaise fun _ => commitHalf_sameSetup
  · rw [tickHalfCycle_of_not_running p hrun]

theorem tickFullCycle_sameSetup (p : MicroParams) (s : State) : SameSetup s (tickFullCycle p s) :=
  (tickHalfCycle_sameSetup p s).trans (tickHalfCycle_sameSetup p _)

theorem runCycles_sameSetup (p : MicroParams) (n : Nat) (s : State) : SameSetup s (runCycles p n s) := by
  induction n generalizing s with
  | zero => rfl
  | succ n ih =>
    rw [runCycles]
    split
    · exact (tickFullCycle_sameSetup p s).trans (ih _)
    · rfl

/-- Settles O13: the step, the half cycle and any number of cycles keep the setup. -/
theorem configurationAndInputsStay : Obligations.ConfigurationAndInputsStay :=
  ⟨fun _ _ h => ⟨(step_sameSetup h).boot_eq, (step_sameSetup h).inputs_eq⟩, fun p n s =>
    ⟨(tickHalfCycle_sameSetup p s).boot_eq, (tickHalfCycle_sameSetup p s).inputs_eq,
      (runCycles_sameSetup p n s).boot_eq, (runCycles_sameSetup p n s).inputs_eq⟩⟩

end Sys2Proof.Machine
end

section
/-! The write checks (20_memory.md R66) as conditions on numbers. -/

namespace Sys2Proof.Machine

theorem BootConfig.inStack_iff (b : BootConfig) (a : Byte) :
    b.inStack a = true ↔ 0xF0 - b.stackSize.bytes ≤ a.toNat ∧ a.toNat ≤ 0xEF := by
  simp [BootConfig.inStack, Config.ramSize, Nat.lt_succ_iff]

theorem BootConfig.aboveBound_iff (b : BootConfig) (a : Byte) :
    b.aboveBound a = true ↔ ∃ p, b.programBound = some p ∧ p.toNat ≤ a.toNat := by
  unfold BootConfig.aboveBound
  cases b.programBound <;> simp

theorem BootConfig.writeCheck_stack_eq (b : BootConfig) (a : Byte) :
    b.writeCheck a .stack = if b.stackSize ≠ .s0 ∧ ¬ b.inStack a = true then some (.stackOverflow a) else none := rfl

theorem BootConfig.writeCheck_data_eq (b : BootConfig) (a : Byte) :
    b.writeCheck a .data =
      if a.toNat ≤ 0xEF ∧ b.aboveBound a = true ∧ ¬ (b.stackSize ≠ .s0 ∧ b.inStack a = true)
      then some (.outOfBoundsWrite a) else none := by
  simp only [BootConfig.writeCheck, Config.ramSize, Nat.lt_succ_iff]

/-- No data write outside RAM is refused. -/
theorem BootConfig.writeCheck_data_of_not_ram (b : BootConfig) {a : Byte} (h : region a ≠ .ram) :
    b.writeCheck a .data = none :=
  if_neg fun hrefused => h ((region_eq_ram_iff a).2 hrefused.1)

/-- Settles O42: the two checks, with the stack region and the program bound as numbers. -/
theorem writeChecks : Obligations.WriteChecks := by
  intro b a
  simp only [BootConfig.writeCheck_stack_eq, BootConfig.writeCheck_data_eq, BootConfig.inStack_iff,
    BootConfig.aboveBound_iff]
  exact ⟨fun h => if_pos h, fun h => if_neg h, fun h => if_pos h, fun h => if_neg h⟩

end Sys2Proof.Machine
end

section
/-! The address map, region by region (20_memory.md R51, R60, R61): the read table, the write table, and the pins of 0xF2. -/

namespace Sys2Proof.Machine

/-! ### Which addresses a region has -/

theorem region_of_le {a : Byte} (h : a.toNat ≤ 0xEF) : region a = .ram :=
  (region_eq_ram_iff a).2 (Nat.lt_succ_of_le h)

theorem region_eq_nothing_iff :
    ∀ a : Byte, region a = .nothing ↔ 0xF4 ≤ a.toNat ∧ a.toNat ≤ 0xF8 ∨ a = 0xFA#8 ∨ a = 0xFB#8 := by
  decide

theorem region_status_or_nothing_of :
    ∀ a : Byte, 0xF3 ≤ a.toNat ∧ a.toNat ≤ 0xF8 ∨ a = 0xFA#8 ∨ a = 0xFB#8 →
      region a = .status ∨ region a = .nothing := by
  decide

theorem region_port_of_le :
    ∀ a : Byte, 0xFC ≤ a.toNat →
      region a = .port .fc ∨ region a = .port .fd ∨ region a = .port .fe ∨ region a = .port .ff := by
  decide

/-! ### Reads -/

/-- Strict mode refuses no read of an address that has a register (20_memory.md R59). -/
theorem State.busRead_of_region_ne {s : State} {a : Byte} (h : region a ≠ .nothing) : s.busRead a = .ok (s.busValue a) :=
  State.busRead_of_readable fun hstrict => h hstrict.2

theorem State.busRead_of_ram {s : State} {a : Byte} (h : region a = .ram) : s.busRead a = .ok (s.ram.read a.toNat) := by
  rw [State.busRead_of_region_ne (by simp [h])]
  simp only [State.busValue, h]

theorem State.busRead_of_nothing {s : State} {a : Byte} (h : region a = .nothing) :
    s.busRead a = if s.boot.strictIo = true then .error (.undefinedInput a) else .ok 0x00#8 := by
  simp only [State.busRead, State.busValue, h, and_true]

/-- The byte 0xF3 shows is MISR's three pending bits moved down. -/
theorem pendingByte_eq_shift (m : Byte) : 0#5 ++ m.extractLsb' 5 3 = m >>> 5 := by
  ext i hi
  rw [BitVec.getElem_append, BitVec.getElem_ushiftRight]
  by_cases hlow : i < 3
  · rw [dif_pos hlow, BitVec.getElem_extractLsb']
  · rw [dif_neg hlow, BitVec.getElem_zero, BitVec.getLsbD_of_ge m _ (by omega)]

/-- Settles O40: each address by its region; strict mode matters only where there is no register. -/
theorem busReadTable : Obligations.BusReadTable := by
  intro s a
  have register : ∀ {c : Byte}, region c ≠ .nothing → a = c → s.busRead a = .ok (s.busValue c) :=
    fun hc ha => by rw [ha, State.busRead_of_region_ne hc]
  exact ⟨fun h => State.busRead_of_ram (region_of_le h), register (by decide), register (by decide), register (by decide),
    fun h => (register (by decide) h).trans (congrArg _ (pendingByte_eq_shift s.misr)), register (by decide),
    register (by decide), register (by decide), register (by decide), register (by decide),
    fun h => State.busRead_of_nothing ((region_eq_nothing_iff a).2 h)⟩

/-! ### Writes -/

theorem State.store_of_ignored {s : State} {a v : Byte} (h : region a = .status ∨ region a = .nothing) :
    s.store a v = s := by
  obtain h | h := h <;> simp only [State.store, h]

/-- What a write of 0xF2 stores, with its two bit fields cut out as the rule writes them. -/
theorem State.store_uio (s : State) (v : Byte) :
    s.store 0xF2#8 v = { s with uioVal := v.setWidth 3, uioDir := (v >>> 4).setWidth 3 } := by
  have hval : v.extractLsb' 0 3 = v.setWidth 3 := by ext; simp
  have hdir : v.extractLsb' 4 3 = (v >>> 4).setWidth 3 := by ext; simp
  rw [← hval, ← hdir]
  rfl

/-- Settles O41: the check decides, and a write it lets through is the store of its region. -/
theorem busWriteTable : Obligations.BusWriteTable := by
  intro s a v k
  refine ⟨fun e => State.busWrite_error_iff.2, fun hcheck => ?_⟩
  have stored : s.busWrite a v k = .ok (s.store a v) := State.busWrite_ok_iff.2 ⟨hcheck, rfl⟩
  have register : ∀ {c : Byte}, a = c → s.busWrite a v k = .ok (s.store c v) := fun ha => ha ▸ stored
  exact ⟨fun h => stored.trans (congrArg _ (State.store_ram (region_of_le h))), register, register,
    fun h => (register h).trans (congrArg _ (s.store_uio v)), register, register, register, register, register,
    fun h => stored.trans (congrArg _ (State.store_of_ignored (region_status_or_nothing_of a h)))⟩

/-! ### A read after a write -/

theorem State.store_busRead_ram {s : State} {a : Byte} (v : Byte) (hwf : s.ram.wf = true) (h : region a = .ram) :
    (s.store a v).busRead a = .ok v := by
  rw [State.busRead_of_ram h, State.store_ram h]
  simp [Memory.read_write hwf]

/-- No read shows an output latch: the board's and the ports' outputs are write-only (20_memory.md R58). -/
theorem State.store_busRead_of_output {s : State} {a : Byte} (v b : Byte)
    (h : region a = .f0 ∨ region a = .f1 ∨ ∃ p, region a = .port p) : (s.store a v).busRead b = s.busRead b := by
  obtain h | h | ⟨p, h⟩ := h <;> simp only [State.store, h] <;> rfl

/-- Settles O43: RAM by the canonical form, the outputs by being write-only, MISR by its view at 0xF3 being the only other
address that shows it. -/
theorem readAfterWrite : Obligations.ReadAfterWrite := by
  rintro s t a v k ⟨hwf, -⟩ hwrite
  obtain ⟨-, rfl⟩ := State.busWrite_ok_iff.1 hwrite
  refine ⟨fun ha => ⟨State.store_busRead_ram v hwf (region_of_le ha), fun b hb => s.store_busRead_of_ne v hb ?_⟩,
    fun ha b => State.store_busRead_of_output v b ?_, fun ha => ⟨?_, fun b hview hb => s.store_busRead_of_ne v hb ?_⟩⟩
  · rintro ⟨rfl, -⟩
    exact absurd ha (by decide)
  · obtain rfl | rfl | ha := ha
    · exact .inl rfl
    · exact .inr (.inl rfl)
    · obtain h | h | h | h := region_port_of_le a ha <;> exact .inr (.inr ⟨_, h⟩)
  · subst ha
    exact State.busRead_of_region_ne (by decide)
  · exact fun h => hview h.2

/-! ### The universal I/O pins -/

/-- A pin's level is its value on an output and the host's level on an input. -/
theorem State.level_getLsbD (s : State) {i : Nat} (hi : i < 3) :
    s.level.getLsbD i = if s.uioDir.getLsbD i = true then s.uioVal.getLsbD i else s.inputs.uioExt.getLsbD i := by
  simp only [State.level, BitVec.getLsbD_or, BitVec.getLsbD_and, BitVec.getLsbD_not, hi]
  cases s.uioDir.getLsbD i <;> simp

/-- The byte that 0xF2 shows: the levels in bits 0 to 2. -/
theorem uioByte_getLsbD_level (dir level : BitVec 3) {i : Nat} (hi : i < 3) :
    (0#1 ++ dir ++ 0#1 ++ level).getLsbD i = level.getLsbD i := by
  simp only [BitVec.getLsbD_append, hi, if_true]

/-- The byte that 0xF2 shows: the directions in bits 4 to 6. -/
theorem uioByte_getLsbD_dir (dir level : BitVec 3) {i : Nat} (hi : i < 3) :
    (0#1 ++ dir ++ 0#1 ++ level).getLsbD (4 + i) = dir.getLsbD i := by
  simp only [BitVec.getLsbD_append]
  rw [if_neg (by omega), if_neg (by omega), if_pos (by omega)]
  congr 1
  omega

theorem uioByte_getLsbD_gaps (dir level : BitVec 3) :
    (0#1 ++ dir ++ 0#1 ++ level).getLsbD 3 = false ∧ (0#1 ++ dir ++ 0#1 ++ level).getLsbD 7 = false := by
  simp only [BitVec.getLsbD_append]
  exact ⟨rfl, rfl⟩

theorem State.store_uio_getLsbD (s : State) (v : Byte) {i : Nat} (hi : i < 3) :
    (s.store 0xF2#8 v).uioVal.getLsbD i = v.getLsbD i ∧ (s.store 0xF2#8 v).uioDir.getLsbD i = v.getLsbD (4 + i) := by
  rw [s.store_uio]
  simp [hi]

/-- Settles O44: 0xF2 is no RAM address, so the write is not refused; then the bits of the byte read, field by field. -/
theorem universalIoPins : Obligations.UniversalIoPins := by
  intro s v
  obtain ⟨hgap3, hgap7⟩ := uioByte_getLsbD_gaps (s.store 0xF2#8 v).uioDir (s.store 0xF2#8 v).level
  refine ⟨s.store 0xF2#8 v, (s.store 0xF2#8 v).busValue 0xF2#8,
    State.busWrite_ok_iff.2 ⟨s.boot.writeCheck_data_of_not_ram (by decide), rfl⟩,
    State.busRead_of_region_ne (by decide), fun i hi => s.store_uio_getLsbD v hi, hgap3, hgap7, fun i hi => ?_⟩
  obtain ⟨hval, hdir⟩ := s.store_uio_getLsbD v hi
  refine ⟨(uioByte_getLsbD_dir _ _ hi).trans hdir, (uioByte_getLsbD_level _ _ hi).trans ?_⟩
  rw [State.level_getLsbD _ hi, hval, hdir, State.store_inputs]

end Sys2Proof.Machine
end

section
/-! The temperature code (20_memory.md R72): the model's integer computation is the floor of the clamped voltage. -/

namespace Sys2Proof.Machine

theorem adcCode_of_nonpos {v : Rat} (h : v ≤ 0) : adcCode v = 0x00#8 :=
  if_pos (Rat.num_nonpos.2 h)

/-- The test for the upper clamp, read from the numerator and the denominator. -/
theorem five_mul_den_le_iff {v : Rat} (h : 0 < v) : 5 * v.den ≤ v.num.toNat ↔ 5 ≤ v := by
  have hnum : (v.num.toNat : Int) = v.num := Int.toNat_of_nonneg (Rat.num_pos.2 h).le
  have hquot : (5 : Rat) ≤ v ↔ 5 * (v.den : Rat) ≤ v.num := by
    rw [← le_div_iff₀ (by exact_mod_cast v.den_pos), Rat.num_div_den]
  rw [hquot]
  norm_cast
  omega

theorem adcCode_of_five_le {v : Rat} (h : 5 ≤ v) : adcCode v = 0xFF#8 := by
  have hpos : 0 < v := lt_of_lt_of_le (by norm_num) h
  rw [adcCode, if_neg (not_le.2 (Rat.num_pos.2 hpos)), if_pos ((five_mul_den_le_iff hpos).2 h)]

/-- Strictly inside the range the quotient of naturals is the floor, and it fits a byte. -/
theorem adcCode_of_between {v : Rat} (h0 : 0 < v) (h5 : v < 5) : ((adcCode v).toNat : Int) = ⌊v * 255 / 5⌋ := by
  have hnum : (v.num.toNat : Int) = v.num := Int.toNat_of_nonneg (Rat.num_pos.2 h0).le
  have hlt : v.num.toNat < 5 * v.den := not_le.1 (mt (five_mul_den_le_iff h0).1 (not_le.2 h5))
  have hfits : v.num.toNat * 255 / (5 * v.den) < 256 := by
    rw [Nat.div_lt_iff_lt_mul (by omega)]
    omega
  have hvolts : v * 255 / 5 = ((v.num.toNat * 255 : Nat) : Rat) / ((5 * v.den : Nat) : Rat) := by
    have hcast : ((v.num.toNat : Nat) : Rat) = v.num := by exact_mod_cast hnum
    push_cast
    rw [hcast, mul_comm (5 : Rat), mul_div_mul_comm, Rat.num_div_den, mul_div_assoc]
  rw [hvolts, Rat.floor_natCast_div_natCast, adcCode, if_neg (not_le.2 (Rat.num_pos.2 h0)), if_neg (not_le.2 hlt),
    BitVec.toNat_ofNat, Nat.mod_eq_of_lt hfits, Int.natCast_ediv]

/-- Settles O45: below the range, above it, and inside it. -/
theorem temperatureCode : Obligations.TemperatureCode := by
  intro v
  obtain hlow | hlow := le_or_gt v 0
  · rw [adcCode_of_nonpos hlow, min_eq_left (hlow.trans (by norm_num)), max_eq_left hlow]
    norm_num
  · obtain hhigh | hhigh := le_or_gt 5 v
    · rw [adcCode_of_five_le hhigh, min_eq_right hhigh]
      norm_num
    · rw [adcCode_of_between hlow hhigh, min_eq_left hhigh.le, max_eq_right hlow.le]

end Sys2Proof.Machine
end

section
/-! The canonical form of RAM and image (20_memory.md R52, 30_encoding.md R130): RAM changes only by stores, which keep it,
and no step changes the image. -/

namespace Sys2Proof.Machine

/-- Settles O11: nothing is listed in either. -/
theorem resetMeetsMemoryForm : Obligations.ResetMeetsMemoryForm :=
  ⟨Memory.wf_empty, Memory.wf_empty⟩

theorem State.storeAt_wf {s : State} (h : s.ram.wf = true) (a : Option Byte) (v : Byte) : (s.storeAt a v).ram.wf = true := by
  cases a with
  | none => exact h
  | some a => exact State.store_wf h a v

theorem Body.Effect.ram_wf {b : Body} {s t : State} (h : b.Effect s t) (hwf : s.ram.wf = true) : t.ram.wf = true := by
  obtain ⟨v, ht⟩ := h.rest
  rw [ht]
  exact State.storeAt_wf hwf _ v

theorem exec_ram_wf {i : Instr} {s t : State} (h : exec i s = .next t) (hwf : s.ram.wf = true) : t.ram.wf = true := by
  obtain heff | ⟨e, rfl⟩ := exec_effect h
  · exact heff.ram_wf hwf
  · exact hwf

theorem enterInterrupt_ram_wf {s t : State} {i : Source} (h : s.enterInterrupt i = .ok t) (hwf : s.ram.wf = true) :
    t.ram.wf = true := by
  obtain ⟨-, rfl⟩ := State.enterInterrupt_ok_iff.1 h
  exact State.store_wf hwf _ _

theorem State.orRaise_ram_wf {s : State} {x : Except Fault State} (hwf : s.ram.wf = true)
    (h : ∀ t, x = .ok t → t.ram.wf = true) : (s.orRaise x).ram.wf = true := by
  cases x with
  | ok t => exact h t rfl
  | error e => exact hwf

/-- Interrupt entry, a fetch that raises, an instruction: each from the state after the samples, which has the same RAM. -/
theorem stepRunning_ram_wf {s t : State} (h : stepRunning s = .next t) (hwf : s.ram.wf = true) : t.ram.wf = true := by
  have hsample : s.sampleInputs.ram.wf = true := hwf
  cases hdue : s.sampleInputs.dueSource with
  | some i =>
    cases (stepRunning_of_due hdue).symm.trans h
    exact State.orRaise_ram_wf hsample fun _ hentry => enterInterrupt_ram_wf hentry hsample
  | none =>
    cases hfetch : s.sampleInputs.fetch with
    | error e =>
      cases (stepRunning_of_fetch_error hdue hfetch).symm.trans h
      exact hsample
    | ok i => exact exec_ram_wf ((stepRunning_of_fetch_ok hdue hfetch).symm.trans h) hsample

theorem step_ram_wf {s t : State} (h : step s = .next t) (hwf : s.ram.wf = true) : t.ram.wf = true := by
  by_cases hrun : s.run = .running
  · exact stepRunning_ram_wf ((step_of_running hrun).symm.trans h) hwf
  · cases (step_of_not_running hrun).symm.trans h
    exact hwf

/-- Settles O10: every step keeps RAM canonical, and leaves the image with the rest of what boot recorded. -/
theorem stepKeepsMemoryForm : Obligations.StepKeepsMemoryForm := by
  intro s t ⟨hram, himage⟩ h
  refine ⟨step_ram_wf h hram, ?_⟩
  rw [(step_sameSetup h).boot_eq]
  exact himage

end Sys2Proof.Machine
end

section
/-! The decoder against the encoder and against the table of byte 0 (30_encoding.md R102 to R115). What byte 0 alone settles about
the decoded instruction (`opcodeFacts`) does not depend on the operand bytes, so it is checked once for each of the 256 values of
byte 0 (`decodeInstr_opcodeFacts`); the operand fields are handled for all their values at once, format by format. -/

namespace Sys2Proof.Machine

/-! ### Fields -/

theorem bits_toNat (v : Byte) (lo w : Nat) : (bits v lo w).toNat = v.toNat / 2 ^ lo % 2 ^ w := by
  simp [bits, Nat.shiftRight_eq_div_pow]

theorem bits_and (v m : Byte) (lo w : Nat) : bits (v &&& m) lo w = bits v lo w &&& bits m lo w :=
  BitVec.extractLsb'_and

/-- A mask that has a field's bits set does not change the field. -/
theorem bits_and_of_allOnes {v m : Byte} {lo w : Nat} (h : bits m lo w = BitVec.allOnes w) :
    bits (v &&& m) lo w = bits v lo w := by
  rw [bits_and, h, BitVec.and_allOnes]

theorem lowReg_and {m : Byte} (v : Byte) (h : bits m 0 2 = BitVec.allOnes 2) : lowReg (v &&& m) = lowReg v :=
  congrArg Reg.ofField (bits_and_of_allOnes h)

theorem highReg_and {m : Byte} (v : Byte) (h : bits m 2 2 = BitVec.allOnes 2) : highReg (v &&& m) = highReg v :=
  congrArg Reg.ofField (bits_and_of_allOnes h)

theorem ofField_toField {r : Reg} (h : r.nameable = true) : Reg.ofField r.toField = r := by
  cases r with
  | r0 | r1 | r2 | r3 => rfl
  | r4 | r5 | r6 | r7 => cases h

theorem lowReg_of_bits {b : Byte} {r : Reg} (h : r.nameable = true) (hb : bits b 0 2 = r.toField) : lowReg b = r := by
  rw [lowReg, hb, ofField_toField h]

theorem highReg_of_bits {b : Byte} {r : Reg} (h : r.nameable = true) (hb : bits b 2 2 = r.toField) : highReg b = r := by
  rw [highReg, hb, ofField_toField h]

theorem lowReg_regByte {r : Reg} (h : r.nameable = true) : lowReg (regByte r) = r :=
  lowReg_of_bits h (by cases r <;> rfl)

theorem lowReg_regPairByte (d : Reg) {r : Reg} (h : r.nameable = true) : lowReg (regPairByte d r) = r :=
  lowReg_of_bits h (by cases d <;> cases r <;> rfl)

theorem highReg_regPairByte {d : Reg} (r : Reg) (h : d.nameable = true) : highReg (regPairByte d r) = d :=
  highReg_of_bits h (by cases d <;> cases r <;> rfl)

/-! ### Byte 0 of each format -/

/-- The fields of R105. -/
theorem bits_opTwo : ∀ (o : BitVec 4) (m : BitVec 3),
    bits (opTwo o m) 7 1 = 1 ∧ bits (opTwo o m) 3 4 = o ∧ bits (opTwo o m) 0 3 = m := by decide

/-- The fields of R107. -/
theorem bits_opUnary : ∀ (u : BitVec 3) (f : BitVec 1) (r : BitVec 2),
    bits (opUnary u f r) 7 1 = 0 ∧ bits (opUnary u f r) 6 2 = 1 ∧ bits (opUnary u f r) 3 3 = u ∧
      bits (opUnary u f r) 2 1 = f ∧ bits (opUnary u f r) 0 2 = r := by decide

/-- The fields of R108. -/
theorem bits_opBit : ∀ (f : BitVec 1) (k r : BitVec 2),
    bits (opBit f k r) 7 1 = 0 ∧ bits (opBit f k r) 6 2 = 0 ∧ bits (opBit f k r) 5 3 = 1 ∧
      bits (opBit f k r) 4 1 = f ∧ bits (opBit f k r) 2 2 = k ∧ bits (opBit f k r) 0 2 = r := by decide

theorem decodeInstr_opTwo (o : BitVec 4) (m : BitVec 3) (b1 b2 : Byte) :
    decodeInstr (opTwo o m) b1 b2 = decodeTwo (opTwo o m) b1 b2 := by
  simp [decodeInstr, bits_opTwo]

theorem decodeInstr_opUnary (u : BitVec 3) (f : BitVec 1) (r : BitVec 2) (b1 b2 : Byte) :
    decodeInstr (opUnary u f r) b1 b2 = decodeUnary (opUnary u f r) b1 := by
  simp [decodeInstr, bits_opUnary]

theorem decodeInstr_opBit (f : BitVec 1) (k r : BitVec 2) (b1 b2 : Byte) :
    decodeInstr (opBit f k r) b1 b2 = decodeBit (opBit f k r) b1 b2 := by
  simp [decodeInstr, bits_opBit]

/-! ### Decoding an encoding -/

theorem encode_length (i : Instr) : (encode i).length = i.length := by
  cases i <;> rfl

theorem core_length (i : Instr) : i.core.length = i.length := by
  cases i <;> rfl

/-- One case for each format with register fields, where the fields must name the registers they were made from; every other
operand is a whole byte, which the decoder hands over as it is. -/
theorem decodeInstr_encode {i : Instr} (h : i.WellFormed) (rest : List Byte) :
    ∃ b0 tail, encode i = b0 :: tail ∧
      decodeInstr b0 ((tail ++ rest).getD 0 0) ((tail ++ rest).getD 1 0) = some i.core := by
  have named := wellFormed_iff.1 h
  cases i with
  -- T-0
  | movRR d r | addRR d r | adcRR d r | subRR d r | sbcRR d r | andRR d r | orRR d r | xorRR d r | cmpRR d r =>
    have hd : d.nameable = true := named d (by simp [Instr.namedRegs])
    have hr : r.nameable = true := named r (by simp [Instr.namedRegs])
    refine ⟨_, _, rfl, ?_⟩
    simp [decodeInstr_opTwo, decodeTwo, bits_opTwo, decodeModes, highReg_regPairByte _ hd, lowReg_regPairByte _ hr,
      Instr.core]
  -- T-1 and T-2
  | movRI d n | addRI d n | adcRI d n | subRI d n | sbcRI d n | andRI d n | orRI d n | xorRI d n | cmpRI d n
  | movRM d n | addRM d n | adcRM d n | subRM d n | sbcRM d n | andRM d n | orRM d n | xorRM d n | cmpRM d n
  | ld d n =>
    have hd : d.nameable = true := named d (by simp [Instr.namedRegs])
    refine ⟨_, _, rfl, ?_⟩
    simp [decodeInstr_opTwo, decodeTwo, bits_opTwo, decodeModes, lowReg_regByte hd, Instr.core]
  -- T-3
  | movMR a r | addMR a r | adcMR a r | subMR a r | sbcMR a r | andMR a r | orMR a r | xorMR a r | cmpMR a r
  | st a r =>
    have hr : r.nameable = true := named r (by simp [Instr.namedRegs])
    refine ⟨_, _, rfl, ?_⟩
    simp [decodeInstr_opTwo, decodeTwo, bits_opTwo, decodeModes, lowReg_regByte hr, Instr.core]
  -- UR
  | incR r | decR r | clrR r | notR r | shlR r | shrR r | asrR r | tstR r =>
    have hr : r.nameable = true := named r (by simp [Instr.namedRegs])
    refine ⟨_, _, rfl, ?_⟩
    simp [decodeInstr_opUnary, decodeUnary, bits_opUnary, lowReg, ofField_toField hr, Instr.core]
  -- BR
  | bitsR r m | bitcR r m | bittR r m =>
    have hr : r.nameable = true := named r (by simp [Instr.namedRegs])
    refine ⟨_, _, rfl, ?_⟩
    simp [decodeInstr_opBit, decodeBit, bits_opBit, lowReg, ofField_toField hr, Instr.core]
  -- Z, J, L, BM, UM, T-4, T-5
  | _ => exact ⟨_, _, rfl, rfl⟩

/-! ### What byte 0 settles -/

/-- The instructions without an encoding of their own (R132). -/
def isPseudo : Instr → Bool
  | .ld _ _ | .st _ _ => true
  | _ => false

theorem core_eq_self {i : Instr} (h : isPseudo i = false) : i.core = i := by
  cases i with
  | ld | st => cases h
  | _ => rfl

/-- The length of an instruction, its byte 0, and whether it is a pseudo-instruction. -/
def opcodeFacts (i : Instr) : Nat × Option Byte × Bool := (i.length, (encode i).head?, isPseudo i)

theorem decodeTwo_opcodeFacts (b0 b1 b2 : Byte) :
    (decodeTwo b0 b1 b2).map opcodeFacts = (decodeTwo b0 0 0).map opcodeFacts := by
  unfold decodeTwo decodeModes
  simp only
  split
  case h_10 => rfl
  all_goals split <;> rfl

theorem decodeUnary_opcodeFacts (b0 b1 : Byte) :
    (decodeUnary b0 b1).map opcodeFacts = (decodeUnary b0 0).map opcodeFacts := by
  unfold decodeUnary
  split <;> rfl

theorem decodeBit_opcodeFacts (b0 b1 b2 : Byte) :
    (decodeBit b0 b1 b2).map opcodeFacts = (decodeBit b0 0 0).map opcodeFacts := by
  unfold decodeBit
  split <;> rfl

theorem decodeControl_opcodeFacts (b0 b1 : Byte) :
    (decodeControl b0 b1).map opcodeFacts = (decodeControl b0 0).map opcodeFacts := by
  unfold decodeControl
  split <;> rfl

/-- Operand bytes are never checked (R112). -/
theorem decodeInstr_opcodeFacts_operands (b0 b1 b2 : Byte) :
    (decodeInstr b0 b1 b2).map opcodeFacts = (decodeInstr b0 0 0).map opcodeFacts := by
  unfold decodeInstr
  split_ifs
  · exact decodeTwo_opcodeFacts b0 b1 b2
  · exact decodeUnary_opcodeFacts b0 b1
  · exact decodeBit_opcodeFacts b0 b1 b2
  · rfl
  · exact decodeControl_opcodeFacts b0 b1
  · rfl

theorem decodeInstr_opcodeFacts_zero : ∀ b0 : Byte,
    (decodeInstr b0 0 0).map opcodeFacts = (opcodeLength b0).map fun n => (n, some b0, false) := by decide

/-- The decoder and the length table agree: a byte 0 with a length decodes, to a core instruction of that length and that byte 0;
one without does not. -/
theorem decodeInstr_opcodeFacts (b0 b1 b2 : Byte) :
    (decodeInstr b0 b1 b2).map opcodeFacts = (opcodeLength b0).map fun n => (n, some b0, false) :=
  (decodeInstr_opcodeFacts_operands b0 b1 b2).trans (decodeInstr_opcodeFacts_zero b0)

theorem decodeInstr_eq_none_iff {b0 b1 b2 : Byte} : decodeInstr b0 b1 b2 = none ↔ opcodeLength b0 = none := by
  rw [← Option.map_eq_none_iff (f := opcodeFacts), decodeInstr_opcodeFacts, Option.map_eq_none_iff]

theorem opcodeLength_of_decodeInstr {b0 b1 b2 : Byte} {i : Instr} (h : decodeInstr b0 b1 b2 = some i) :
    opcodeLength b0 = some i.length ∧ (encode i).head? = some b0 ∧ isPseudo i = false := by
  have facts := decodeInstr_opcodeFacts b0 b1 b2
  rw [h, Option.map_some] at facts
  obtain ⟨n, hn, heq⟩ := Option.map_eq_some_iff.1 facts.symm
  obtain ⟨hlen, hbyte, hpseudo⟩ : n = i.length ∧ some b0 = (encode i).head? ∧ false = isPseudo i := by
    simpa [opcodeFacts] using heq
  exact ⟨hlen ▸ hn, hbyte.symm, hpseudo.symm⟩

theorem exists_decodeInstr_of_opcodeLength {b0 : Byte} {n : Nat} (h : opcodeLength b0 = some n) (b1 b2 : Byte) :
    ∃ i, decodeInstr b0 b1 b2 = some i ∧ i.length = n := by
  cases hi : decodeInstr b0 b1 b2 with
  | none => cases h.symm.trans (decodeInstr_eq_none_iff.1 hi)
  | some i => exact ⟨i, rfl, Option.some.inj ((opcodeLength_of_decodeInstr hi).1.symm.trans h)⟩

/-- A list that begins with all the bytes of an instruction decodes to it, and the rest is left. -/
theorem decode_of_decodeInstr {b0 : Byte} {tail rest : List Byte} {i : Instr}
    (hi : decodeInstr b0 ((tail ++ rest).getD 0 0) ((tail ++ rest).getD 1 0) = some i)
    (hlen : i.length = tail.length + 1) : decode (b0 :: tail ++ rest) = .ok (i, rest) := by
  obtain ⟨hn, -, -⟩ := opcodeLength_of_decodeInstr hi
  have hlong : ¬ (tail ++ rest).length + 1 < i.length := by simp [hlen]
  simp only [List.cons_append, decode, hn, hi, if_neg hlong]
  simp [hlen]

/-- A list that decodes begins with a byte 0 that does. -/
theorem decodeInstr_of_decode {b0 b1 b2 : Byte} {i : Instr} {rest : List Byte} (h : decode [b0, b1, b2] = .ok (i, rest)) :
    decodeInstr b0 b1 b2 = some i := by
  simp only [decode] at h
  split at h
  · split at h
    · cases h
    · cases h
      assumption
  · cases h

/-- Settles O2: byte 0 gives back the form and the length, the fields give back the operands. -/
theorem decodeEncodeAgree : Obligations.DecodeEncodeAgree := by
  intro i rest h
  obtain ⟨b0, tail, hbytes, hi⟩ := decodeInstr_encode h rest
  have hlen : i.core.length = tail.length + 1 := by rw [core_length, ← encode_length, hbytes, List.length_cons]
  rw [hbytes]
  exact decode_of_decodeInstr hi hlen

/-- Settles O3: the facts byte 0 settles, and the registers a field can name. -/
theorem everyLegalByteDecodes : Obligations.EveryLegalByteDecodes := by
  intro b0 b1 b2 n hn
  obtain ⟨i, hi, hlen⟩ := exists_decodeInstr_of_opcodeLength hn b1 b2
  obtain ⟨-, hbyte, hpseudo⟩ := opcodeLength_of_decodeInstr hi
  exact ⟨i, hi, decodeInstr_wellFormed hi, core_eq_self hpseudo, hlen, hbyte⟩

/-- Settles O1: each word evaluated. -/
theorem writtenOutWordsDecode : Obligations.WrittenOutWordsDecode := by
  unfold Obligations.WrittenOutWordsDecode
  decide

/-! ### Ignored bits and bytes (R103, R106, R114) -/

/-- Format T-0 looks at the two register fields of byte 1 alone. -/
theorem decodeTwo_congr_RR {b0 b1 c1 : Byte} (b2 c2 : Byte) (hmode : (bits b0 0 3).toNat = 0)
    (hhigh : highReg b1 = highReg c1) (hlow : lowReg b1 = lowReg c1) : decodeTwo b0 b1 b2 = decodeTwo b0 c1 c2 := by
  simp only [decodeTwo, decodeModes, hmode, hhigh, hlow]

/-- Formats T-1 and T-2 look at the low field of byte 1. -/
theorem decodeTwo_congr_RI_RM {b0 b1 c1 : Byte} (b2 : Byte)
    (hmode : (bits b0 0 3).toNat = 1 ∨ (bits b0 0 3).toNat = 2) (hlow : lowReg b1 = lowReg c1) :
    decodeTwo b0 b1 b2 = decodeTwo b0 c1 b2 := by
  obtain hmode | hmode := hmode <;> simp only [decodeTwo, decodeModes, hmode, hlow]

/-- Format T-3 looks at the low field of byte 2. -/
theorem decodeTwo_congr_MR {b0 b2 c2 : Byte} (b1 : Byte) (hmode : (bits b0 0 3).toNat = 3)
    (hlow : lowReg b2 = lowReg c2) : decodeTwo b0 b1 b2 = decodeTwo b0 b1 c2 := by
  simp only [decodeTwo, decodeModes, hmode, hlow]

theorem decodeInstr_of_high {b0 : Byte} (h : 0x80 ≤ b0.toNat) (b1 b2 : Byte) :
    decodeInstr b0 b1 b2 = decodeTwo b0 b1 b2 := by
  rw [decodeInstr, if_pos]
  rw [bits_toNat]
  have := b0.isLt
  omega

/-- No register of bank 2 can be named. -/
theorem ne_of_nameable {r : Reg} (h : r.nameable = true) : r ≠ .r4 ∧ r ≠ .r5 ∧ r ≠ .r6 ∧ r ≠ .r7 := by
  cases r with
  | r0 | r1 | r2 | r3 => decide
  | r4 | r5 | r6 | r7 => cases h

/-- Settles O5: a field names R0 to R3, a decoded instruction is well formed, and a mask that spares the register fields does not
change what the decoder looks at. -/
theorem registerFields : Obligations.RegisterFields := by
  refine ⟨⟨rfl, rfl, rfl, rfl, rfl⟩, fun b0 b1 b2 i hi r hr => ?_, fun b0 b1 b2 hhigh => ?_⟩
  · exact ne_of_nameable (wellFormed_iff.1 (decodeInstr_wellFormed hi) r hr)
  · have hmode : (bits b0 0 3).toNat = b0.toNat % 8 := by simp [bits_toNat]
    simp only [decodeInstr_of_high hhigh, ← hmode]
    exact ⟨fun h => decodeTwo_congr_RR _ _ h (highReg_and b1 rfl).symm (lowReg_and b1 rfl).symm,
      fun h => decodeTwo_congr_RI_RM _ h (lowReg_and b1 rfl).symm,
      fun h => decodeTwo_congr_MR _ h (lowReg_and b2 rfl).symm⟩

/-- Byte 0 of length 1 is of format Z or UR. -/
theorem formats_of_opcodeLength_one : ∀ b0 : Byte, opcodeLength b0 = some 1 →
    (bits b0 7 1).toNat ≠ 1 ∧ (bits b0 5 3).toNat ≠ 1 ∧ b0 ≠ 0x10#8 ∧
      ((bits b0 6 2).toNat = 1 → (bits b0 2 1).toNat = 0) ∧ ((bits b0 4 4).toNat = 0 → (bits b0 3 1).toNat = 0) := by
  decide

/-- Byte 0 of length 2 is, where it is of format T, T-0, and where it is a bit instruction, BR. -/
theorem formats_of_opcodeLength_two : ∀ b0 : Byte, opcodeLength b0 = some 2 →
    ((bits b0 7 1).toNat = 1 → (bits b0 0 3).toNat = 0) ∧ ((bits b0 5 3).toNat = 1 → (bits b0 4 1).toNat = 0) := by
  decide

theorem decodeBit_congr_register {b0 : Byte} (b1 b2 c2 : Byte) (hf : (bits b0 4 1).toNat = 0) :
    decodeBit b0 b1 b2 = decodeBit b0 b1 c2 := by
  simp only [decodeBit, hf]
  split <;> first | rfl | contradiction

theorem decodeUnary_congr_register {b0 : Byte} (b1 c1 : Byte) (hf : (bits b0 2 1).toNat = 0) :
    decodeUnary b0 b1 = decodeUnary b0 c1 := by
  simp only [decodeUnary, hf]
  split <;> first | rfl | contradiction

theorem decodeControl_congr_zero {b0 : Byte} (b1 c1 : Byte) (hj : (bits b0 3 1).toNat = 0) :
    decodeControl b0 b1 = decodeControl b0 c1 := by
  simp only [decodeControl, hj]
  split <;> first | rfl | contradiction

/-- An instruction of one byte does not depend on the bytes after it. -/
theorem decodeInstr_congr_of_length_one {b0 : Byte} (h : opcodeLength b0 = some 1) (b1 b2 c1 c2 : Byte) :
    decodeInstr b0 b1 b2 = decodeInstr b0 c1 c2 := by
  obtain ⟨htwo, hbit, hldsp, hunary, hcontrol⟩ := formats_of_opcodeLength_one b0 h
  unfold decodeInstr
  rw [if_neg htwo, if_neg htwo, if_neg hbit, if_neg hbit, if_neg hldsp, if_neg hldsp]
  split_ifs with hu hc
  · exact decodeUnary_congr_register b1 c1 (hunary hu)
  · exact decodeControl_congr_zero b1 c1 (hcontrol hc)
  · rfl

/-- An instruction of two bytes does not depend on the third. -/
theorem decodeInstr_congr_of_length_two {b0 : Byte} (h : opcodeLength b0 = some 2) (b1 b2 c2 : Byte) :
    decodeInstr b0 b1 b2 = decodeInstr b0 b1 c2 := by
  obtain ⟨htwo, hbit⟩ := formats_of_opcodeLength_two b0 h
  unfold decodeInstr
  split_ifs with ht _ hb
  · exact decodeTwo_congr_RR b2 c2 (htwo ht) rfl rfl
  · rfl
  · exact decodeBit_congr_register b1 b2 c2 (hbit hb)
  all_goals rfl

/-! ### The illegal values of byte 0 (R112) -/

/-- The 256 values of a byte. -/
def allBytes : List Byte := (List.finRange 256).map BitVec.ofFin

theorem mem_allBytes (b : Byte) : b ∈ allBytes := List.mem_map.2 ⟨b.toFin, List.mem_finRange _, rfl⟩

theorem allBytes_nodup : allBytes.Nodup :=
  (List.nodup_finRange 256).map fun _ _ h => congrArg BitVec.toFin h

/-- The list of R112 is what the length table leaves out, in rising order. -/
theorem illegalOpcodes_eq_filter : illegalOpcodes = allBytes.filter fun b => opcodeLength b = none := by decide

theorem opcodeLength_eq_none_iff (b0 : Byte) : opcodeLength b0 = none ↔ b0 ∈ illegalOpcodes := by
  rw [illegalOpcodes_eq_filter, List.mem_filter, decide_eq_true_iff, and_iff_right (mem_allBytes b0)]

theorem illegalOpcodes_nodup : illegalOpcodes.Nodup := by
  rw [illegalOpcodes_eq_filter]
  exact allBytes_nodup.filter _

end Sys2Proof.Machine
end

section
/-! The instruction fetch, case by case (30_encoding.md R118, R119), and the steps that end in an error (R112, R121). The fetch
reads the bus at the state after the samples, where it shows what it showed before them. -/

namespace Sys2Proof.Machine

/-! ### Operand bytes -/

theorem opcodeLength_cases {b0 : Byte} {n : Nat} (h : opcodeLength b0 = some n) : n = 1 ∨ n = 2 ∨ n = 3 := by
  obtain ⟨i, -, rfl⟩ := exists_decodeInstr_of_opcodeLength h 0 0
  cases i <;> simp [Instr.length]

theorem State.fetchOperand_of_readable {s : State} {n k : Nat} (hk : k < n) (h : s.Readable (s.pc + BitVec.ofNat 8 k)) :
    s.fetchOperand n k = .ok (s.busValue (s.pc + BitVec.ofNat 8 k)) := by
  rw [State.fetchOperand, if_pos hk, State.busRead_of_readable h]

theorem State.fetchOperand_of_not_readable {s : State} {n k : Nat} (hk : k < n)
    (h : ¬ s.Readable (s.pc + BitVec.ofNat 8 k)) :
    s.fetchOperand n k = .error (.undefinedInput (s.pc + BitVec.ofNat 8 k)) := by
  rw [State.fetchOperand, if_pos hk, State.busRead_error_iff.2 ⟨h, rfl⟩]

theorem State.fetchOperand_of_le {s : State} {n k : Nat} (hk : n ≤ k) : s.fetchOperand n k = .ok 0#8 := by
  rw [State.fetchOperand, if_neg (Nat.not_lt.2 hk)]

/-! ### The fetch -/

theorem State.fetch_of_not_readable {s : State} (h : ¬ s.Readable s.pc) :
    s.fetch = .error (.undefinedInput s.pc) := by
  rw [State.fetch, State.busRead_error_iff.2 ⟨h, rfl⟩]
  rfl

theorem State.fetch_of_illegal {s : State} (h : s.Readable s.pc) (hn : opcodeLength (s.busValue s.pc) = none) :
    s.fetch = .error (.illegalOpcode s.pc) := by
  rw [State.fetch, State.busRead_of_readable h]
  simp only [bind, Except.bind, hn]

theorem State.fetch_of_operand_one_error {s : State} {n : Nat} {e : Fault} (h : s.Readable s.pc)
    (hn : opcodeLength (s.busValue s.pc) = some n) (h1 : s.fetchOperand n 1 = .error e) : s.fetch = .error e := by
  rw [State.fetch, State.busRead_of_readable h]
  simp only [bind, Except.bind, hn, h1]

theorem State.fetch_of_operand_two_error {s : State} {n : Nat} {b1 : Byte} {e : Fault} (h : s.Readable s.pc)
    (hn : opcodeLength (s.busValue s.pc) = some n) (h1 : s.fetchOperand n 1 = .ok b1)
    (h2 : s.fetchOperand n 2 = .error e) : s.fetch = .error e := by
  rw [State.fetch, State.busRead_of_readable h]
  simp only [bind, Except.bind, hn, h1, h2]

theorem State.fetch_of_operands {s : State} {n : Nat} {b1 b2 : Byte} {i : Instr} (h : s.Readable s.pc)
    (hn : opcodeLength (s.busValue s.pc) = some n) (h1 : s.fetchOperand n 1 = .ok b1) (h2 : s.fetchOperand n 2 = .ok b2)
    (hi : decodeInstr (s.busValue s.pc) b1 b2 = some i) : s.fetch = .ok i := by
  rw [State.fetch, State.busRead_of_readable h]
  simp only [bind, Except.bind, hn, h1, h2, hi]

/-- The first operand byte that cannot be read ends the fetch. -/
theorem State.fetch_of_operand_not_readable {s : State} {n k : Nat} (h : s.Readable s.pc)
    (hn : opcodeLength (s.busValue s.pc) = some n) (hk : 1 ≤ k) (hkn : k < n)
    (hbefore : ∀ j, 1 ≤ j → j < k → s.Readable (s.pc + BitVec.ofNat 8 j))
    (hbad : ¬ s.Readable (s.pc + BitVec.ofNat 8 k)) :
    s.fetch = .error (.undefinedInput (s.pc + BitVec.ofNat 8 k)) := by
  have hlen := opcodeLength_cases hn
  obtain rfl | rfl : k = 1 ∨ k = 2 := by omega
  · exact State.fetch_of_operand_one_error h hn (State.fetchOperand_of_not_readable hkn hbad)
  · have h1 := State.fetchOperand_of_readable (n := n) (by omega) (hbefore 1 le_rfl one_lt_two)
    exact State.fetch_of_operand_two_error h hn h1 (State.fetchOperand_of_not_readable hkn hbad)

/-- With every byte readable, the fetch gives the instruction of the three bytes from the PC on: a shorter one does not look at
the bytes it does not have. -/
theorem State.fetch_of_readable {s : State} {i : Instr} (h : s.Readable s.pc)
    (hi : decodeInstr (s.busValue s.pc) (s.busValue (s.pc + 1)) (s.busValue (s.pc + 2)) = some i)
    (hops : ∀ k, 1 ≤ k → k < i.length → s.Readable (s.pc + BitVec.ofNat 8 k)) : s.fetch = .ok i := by
  obtain ⟨hn, -, -⟩ := opcodeLength_of_decodeInstr hi
  have operand : ∀ k, 1 ≤ k → k < i.length → s.fetchOperand i.length k = .ok (s.busValue (s.pc + BitVec.ofNat 8 k)) :=
    fun k hk hlt => State.fetchOperand_of_readable hlt (hops k hk hlt)
  obtain hlen | hlen | hlen := opcodeLength_cases hn
  · rw [decodeInstr_congr_of_length_one (hlen ▸ hn) _ _ 0 0] at hi
    exact State.fetch_of_operands h hn (State.fetchOperand_of_le (by omega)) (State.fetchOperand_of_le (by omega)) hi
  · rw [decodeInstr_congr_of_length_two (hlen ▸ hn) _ _ 0] at hi
    exact State.fetch_of_operands h hn (operand 1 (by omega) (by omega)) (State.fetchOperand_of_le (by omega)) hi
  · exact State.fetch_of_operands h hn (operand 1 (by omega) (by omega)) (operand 2 (by omega) (by omega)) hi

/-! ### The step -/

theorem step_of_fetch_error {s : State} {e : Fault} (hrun : s.run = .running) (hdue : s.sampleInputs.dueSource = none)
    (h : s.sampleInputs.fetch = .error e) : step s = .next (s.sampleInputs.raise e) :=
  (step_of_running hrun).trans (stepRunning_of_fetch_error hdue h)

theorem step_of_fetch_ok {s : State} {i : Instr} (hrun : s.run = .running) (hdue : s.sampleInputs.dueSource = none)
    (h : s.sampleInputs.fetch = .ok i) : step s = exec i s.sampleInputs :=
  (step_of_running hrun).trans (stepRunning_of_fetch_ok hdue h)

/-- Settles O7: each case of the fetch, at the state after the samples, whose bus reads are those of `s`. -/
theorem instructionCycle : Obligations.InstructionCycle := by
  intro s hrun t
  refine ⟨fun i hi => (step_of_running hrun).trans (stepRunning_of_due hi), fun hdue => ⟨fun hpc => ?_, fun hpc =>
    ⟨fun hill => ?_, fun n hn => ⟨fun k hk hkn hbefore hbad => ?_, fun hops => ?_⟩⟩⟩⟩
  · exact step_of_fetch_error hrun hdue (State.fetch_of_not_readable hpc)
  · exact step_of_fetch_error hrun hdue (State.fetch_of_illegal hpc hill)
  · exact step_of_fetch_error hrun hdue (State.fetch_of_operand_not_readable hpc hn hk hkn hbefore hbad)
  · obtain ⟨i, hi, rfl⟩ := exists_decodeInstr_of_opcodeLength hn (s.busValue (s.pc + 1)) (s.busValue (s.pc + 2))
    exact ⟨i, hi, rfl, step_of_fetch_ok hrun hdue (State.fetch_of_readable hpc hi hops)⟩

/-- Settles O6: the fetch finds the decoded instruction, and what is decoded is well formed. -/
theorem stepRunsDecodedInstruction : Obligations.StepRunsDecodedInstruction := by
  intro s i rest hrun hdue hdec hread
  have hi := decodeInstr_of_decode hdec
  have hpos : 0 < i.length := by
    have := opcodeLength_cases (opcodeLength_of_decodeInstr hi).1
    omega
  have hpc : s.Readable s.pc := by simpa using hread 0 hpos
  exact ⟨decodeInstr_wellFormed hi,
    step_of_fetch_ok hrun hdue (State.fetch_of_readable hpc hi fun k _ hk => hread k hk)⟩

/-- Settles O4: the list is what has no length, the decoder refuses the same bytes, and the fetch raises at each. -/
theorem illegalOpcodesRaise : Obligations.IllegalOpcodesRaise := by
  refine ⟨rfl, illegalOpcodes_nodup, fun b0 _ _ => decodeInstr_eq_none_iff.trans (opcodeLength_eq_none_iff b0),
    opcodeLength_eq_none_iff, fun s hrun hdue hpc hill => ?_⟩
  exact step_of_fetch_error hrun hdue (State.fetch_of_illegal hpc ((opcodeLength_eq_none_iff _).2 hill))

/-! ### Precise errors -/

/-- A step in `Running` leaves the core running or stopped, or raises an error in the state after the samples. -/
theorem stepRunning_run {s t : State} (hrun : s.run = .running) (h : stepRunning s = .next t) :
    (t.run = .running ∨ t.run = .stopped) ∨ ∃ e, t = s.sampleInputs.raise e := by
  cases hdue : s.sampleInputs.dueSource with
  | some i =>
    cases (stepRunning_of_due hdue).symm.trans h
    cases hentry : s.sampleInputs.enterInterrupt i with
    | ok u =>
      obtain ⟨-, rfl⟩ := State.enterInterrupt_ok_iff.1 hentry
      exact .inl (.inl (by simpa using hrun))
    | error e => exact .inr ⟨e, rfl⟩
  | none =>
    cases hfetch : s.sampleInputs.fetch with
    | error e =>
      cases (stepRunning_of_fetch_error hdue hfetch).symm.trans h
      exact .inr ⟨e, rfl⟩
    | ok i =>
      obtain heff | hraise := exec_effect ((stepRunning_of_fetch_ok hdue hfetch).symm.trans h)
      · exact .inl (heff.run.imp (fun hsame => hsame.trans hrun) And.right)
      · exact .inr hraise

/-- Settles O17: a step that ends in an error is the state after the samples with the error raised. -/
theorem preciseErrors : Obligations.PreciseErrors := by
  intro s t e hrun h herr
  obtain hgoes | ⟨e', rfl⟩ := stepRunning_run hrun ((step_of_running hrun).symm.trans h)
  · rw [herr] at hgoes
    cases hgoes <;> contradiction
  · cases herr
    exact ⟨rfl, rfl⟩

end Sys2Proof.Machine
end

section
/-! Assembled images (30_encoding.md R130). The layout reserves for every emission the bytes it will fill, below 0xF0
(`Layout.Fits`): an instruction's length is settled by the shape of its operands, which resolving the identifiers keeps. So every
byte of the image is written below 0xF0, and writes keep the canonical form. -/

namespace Sys2Proof.Machine

/-! ### The length of a chosen form -/

/-- A resolved operand with 0 for its number, as `AsmOperand.shape` gives it before it is resolved. -/
def AsmValue.shape : AsmValue → AsmValue
  | .reg r => .reg r
  | .value _ => .value 0
  | .mem _ => .mem 0

/-- The length of the instruction a choice gives depends on the shape of its operands only. -/
def ShapeFixesLength (f : List AsmValue → Option Instr) : Prop :=
  ∀ vs, (f vs).map Instr.length = (f (vs.map AsmValue.shape)).map Instr.length

theorem chooseNone_shape (i : Instr) : ShapeFixesLength (chooseNone i) := by
  rintro (_ | ⟨v, vs⟩) <;> rfl

theorem chooseByte_shape {f : Byte → Instr} (hf : ∀ n, (f n).length = 2) : ShapeFixesLength (chooseByte f) := by
  rintro (_ | ⟨v, _ | ⟨w, vs⟩⟩)
  · rfl
  · cases v <;> simp [chooseByte, AsmValue.shape, hf]
  · cases v <;> rfl

theorem chooseOne_shape {reg : Reg → Instr} {mem : Byte → Instr} (hmem : ∀ a, (mem a).length = 2) :
    ShapeFixesLength (chooseOne reg mem) := by
  rintro (_ | ⟨v, _ | ⟨w, vs⟩⟩)
  · rfl
  · cases v <;> simp [chooseOne, AsmValue.shape, hmem]
  · cases v <;> rfl

theorem chooseBit_shape {reg : Reg → Byte → Instr} {mem : Byte → Byte → Instr} (hreg : ∀ r m, (reg r m).length = 2)
    (hmem : ∀ a m, (mem a m).length = 3) : ShapeFixesLength (chooseBit reg mem) := by
  rintro (_ | ⟨v, _ | ⟨w, _ | ⟨x, vs⟩⟩⟩)
  · rfl
  · cases v <;> rfl
  · cases v <;> cases w <;> simp [chooseBit, AsmValue.shape, hreg, hmem]
  · cases v <;> cases w <;> rfl

/-- Format T-0 has no number to resolve, so nothing is asked of its length. -/
theorem chooseTwo_shape {rr : Reg → Reg → Instr} {ri rm : Reg → Byte → Instr} {mr : Byte → Reg → Instr}
    {mm mi : Byte → Byte → Instr} (hri : ∀ d n, (ri d n).length = 3)
    (hrm : ∀ d a, (rm d a).length = 3) (hmr : ∀ a r, (mr a r).length = 3) (hmm : ∀ a b, (mm a b).length = 3)
    (hmi : ∀ a n, (mi a n).length = 3) : ShapeFixesLength (chooseTwo rr ri rm mr mm mi) := by
  rintro (_ | ⟨v, _ | ⟨w, _ | ⟨x, vs⟩⟩⟩)
  · rfl
  · cases v <;> rfl
  · cases v <;> cases w <;> simp [chooseTwo, AsmValue.shape, hri, hrm, hmr, hmm, hmi]
  · cases v <;> cases w <;> rfl

theorem chooseInstr_shape (m : Mnemonic) : ShapeFixesLength (chooseInstr m) := by
  cases m with
  | nop_ | stop_ | ei_ | di_ | ret_ | reti_ => exact chooseNone_shape _
  | jr_ | jzs_ | jzc_ | jcs_ | jcc_ | jns_ | jnc_ | call_ | ldsp_ => exact chooseByte_shape fun _ => rfl
  | bits_ | bitc_ | bitt_ => exact chooseBit_shape (fun _ _ => rfl) fun _ _ => rfl
  | inc_ | dec_ | clr_ | not_ | shl_ | shr_ | asr_ | tst_ => exact chooseOne_shape fun _ => rfl
  | mov_ | add_ | adc_ | sub_ | sbc_ | and_ | or_ | xor_ | cmp_ =>
    exact chooseTwo_shape (fun _ _ => rfl) (fun _ _ => rfl) (fun _ _ => rfl) (fun _ _ => rfl) fun _ _ => rfl
  | ld_ | st_ =>
    rintro (_ | ⟨v, _ | ⟨w, _ | ⟨x, vs⟩⟩⟩)
    · rfl
    · cases v <;> rfl
    · cases v <;> cases w <;> rfl
    · cases v <;> cases w <;> rfl

/-! ### Resolving operands -/

theorem resolveOperand_shape {tab : List Symbol} {o : AsmOperand} {v : AsmValue} (h : resolveOperand tab o = .ok v) :
    v.shape = o.shape := by
  cases o with
  | reg r =>
    cases h
    rfl
  | value e | mem e =>
    obtain ⟨n, -, h⟩ := except_bind_eq_ok.1 h
    cases h
    rfl

theorem resolveOperands_shape {tab : List Symbol} {ops : List AsmOperand} {vs : List AsmValue}
    (h : ops.mapM (resolveOperand tab) = .ok vs) : vs.map AsmValue.shape = ops.map AsmOperand.shape := by
  induction ops generalizing vs with
  | nil =>
    cases h
    rfl
  | cons o ops ih =>
    rw [List.mapM_cons] at h
    obtain ⟨v, hv, h⟩ := except_bind_eq_ok.1 h
    obtain ⟨ws, hws, h⟩ := except_bind_eq_ok.1 h
    cases h
    rw [List.map_cons, List.map_cons, resolveOperand_shape hv, ih hws]

/-! ### The layout -/

/-- The number of bytes an emission fills. -/
def Emission.size : Emission → Nat
  | .bytes ns => ns.length
  | .instr m ops => ((chooseInstr m (ops.map AsmOperand.shape)).map Instr.length).getD 0

theorem emissionBytes_length {tab : List Symbol} {e : Emission} {vs : List Byte} (h : emissionBytes tab e = .ok vs) :
    vs.length = e.size := by
  cases e with
  | bytes ns =>
    cases h
    exact List.length_map _
  | instr m ops =>
    obtain ⟨ws, hws, h⟩ := except_bind_eq_ok.1 h
    split at h
    · next i hi =>
      cases h
      have hlen := chooseInstr_shape m ws
      rw [hi, resolveOperands_shape hws] at hlen
      rw [Emission.size, ← hlen, encode_length]
      rfl
    · cases h

/-- Every emission ends below 0xF0. -/
def Layout.Fits (l : Layout) : Prop := ∀ p ∈ l.items, p.1 + p.2.size ≤ Config.ramSize

theorem Layout.emit_fits {l m : Layout} {n : Nat} {e : Emission} (hl : l.Fits) (hn : e.size = n)
    (h : l.emit n e = .ok m) : m.Fits := by
  obtain ⟨hfit, rfl⟩ := Layout.emit_ok_iff.1 h
  subst hn
  exact List.forall_mem_cons.2 ⟨hfit, hl⟩

/-- Binding a name emits nothing. -/
theorem Layout.bindLabel_fits {l m : Layout} {x : Name} (hl : l.Fits) (h : l.bindLabel x = .ok m) : m.Fits := by
  unfold Layout.bindLabel at h
  split at h <;> cases h
  exact hl

theorem Layout.bindEqu_fits {l m : Layout} {x : Name} {e : AsmExpr} (hl : l.Fits) (h : l.bindEqu x e = .ok m) :
    m.Fits := by
  obtain ⟨n, -, h⟩ := except_bind_eq_ok.1 h
  split at h <;> cases h
  exact hl

/-- Only instructions and `.DB` emit; every other statement leaves the emissions as they are. -/
theorem Layout.place_fits {l m : Layout} {st : AsmStatement} (hl : l.Fits) (h : l.place st = .ok m) : m.Fits := by
  cases st with
  | instr mn ops =>
    unfold Layout.place at h
    simp only at h
    split at h
    · next i hi => exact Layout.emit_fits hl (by simp [Emission.size, hi]) h
    · cases h
  | org n =>
    obtain ⟨-, rfl⟩ := Layout.place_org_ok_iff.1 h
    exact hl
  | db ns =>
    unfold Layout.place at h
    simp only at h
    split at h
    · exact Layout.emit_fits (n := ns.length) hl rfl h
    · cases h
  | equ x e => exact Layout.bindEqu_fits hl h
  | stackSize a => cases a <;> cases h <;> exact hl
  | programSize a =>
    cases a with
    | size n =>
      unfold Layout.place at h
      simp only at h
      split at h <;> cases h
      exact hl
    | noSet | auto =>
      cases h
      exact hl

theorem Layout.line_fits {l m : Layout} {ln : AsmLine} (hl : l.Fits) (h : l.line ln = .ok m) : m.Fits := by
  obtain ⟨_ | x, _ | st⟩ := ln
  · cases h
    exact hl
  · exact Layout.place_fits hl h
  · obtain ⟨k, hk, h⟩ := except_bind_eq_ok.1 h
    cases h
    exact Layout.bindLabel_fits hl hk
  · obtain ⟨k, hk, h⟩ := except_bind_eq_ok.1 h
    exact Layout.place_fits (Layout.bindLabel_fits hl hk) h

theorem Layout.lines_fits {l m : Layout} {lns : List AsmLine} (hl : l.Fits) (h : l.lines lns = .ok m) : m.Fits := by
  induction lns generalizing l with
  | nil =>
    cases h
    exact hl
  | cons ln lns ih =>
    obtain ⟨k, hk, h⟩ := except_bind_eq_ok.1 h
    exact ih (Layout.line_fits hl hk) h

/-! ### The image -/

/-- Bytes that end below 0xF0 are written in RAM, where a write keeps the canonical form. -/
theorem writeBytes_wf {mem : Memory} {a : Nat} {vs : List Byte} (hfit : a + vs.length ≤ Config.ramSize)
    (h : mem.wf = true) : (writeBytes mem a vs).wf = true := by
  induction vs generalizing mem a with
  | nil => exact h
  | cons v vs ih =>
    rw [List.length_cons] at hfit
    exact ih (by omega) (Memory.wf_write (by omega) h)

theorem writeItems_wf {tab : List Symbol} {items : List (Nat × Emission)} {mem : Memory}
    (hfit : ∀ p ∈ items, p.1 + p.2.size ≤ Config.ramSize) (h : writeItems tab items = .ok mem) : mem.wf = true := by
  induction items generalizing mem with
  | nil =>
    cases h
    exact Memory.wf_empty
  | cons p items ih =>
    obtain ⟨hp, hitems⟩ := List.forall_mem_cons.1 hfit
    obtain ⟨old, hold, h⟩ := except_bind_eq_ok.1 h
    obtain ⟨vs, hvs, h⟩ := except_bind_eq_ok.1 h
    cases h
    exact writeBytes_wf (emissionBytes_length hvs ▸ hp) (ih hitems hold)

theorem assembleLines_image {strictIo : Bool} {lns : List AsmLine} {cfg : BootConfig}
    (h : assembleLines strictIo lns = .ok cfg) : cfg.image.wf = true ∧ cfg.strictIo = strictIo := by
  obtain ⟨l, hl, h⟩ := except_bind_eq_ok.1 h
  obtain ⟨image, himage, h⟩ := except_bind_eq_ok.1 h
  cases h
  have hempty : Layout.empty.Fits := nofun
  exact ⟨writeItems_wf (Layout.lines_fits hempty hl) himage, rfl⟩

/-- Settles O55: the image is canonical, and boot copies it to RAM and records it. -/
theorem assembledImages : Obligations.AssembledImages := by
  intro strictIo text cfg inputs h
  obtain ⟨lns, -, hlines⟩ := except_bind_eq_ok.1 h
  obtain ⟨hwf, hstrict⟩ := assembleLines_image hlines
  exact ⟨hwf, hstrict, ⟨hwf, hwf⟩, rfl⟩

end Sys2Proof.Machine
end

section
/-! The ALU on numbers (40_datapath.md R144, R145). Additions and subtractions go through the 9-bit intermediate, shifts join two
pieces of A, the other functions give a byte with carry 0. -/

namespace Sys2Proof.Machine

/-- The result byte stands for `f`, and the carry is set exactly when `c` holds. -/
def AluOut.Gives (o : AluOut) (f : Nat) (c : Prop) : Prop := o.f.toNat = f ∧ (o.c = true ↔ c)

theorem AluOut.gives_without_carry {f : Byte} {n : Nat} (h : f.toNat = n) : AluOut.Gives ⟨f, false⟩ n False :=
  ⟨h, Bool.false_eq_true ▸ Iff.rfl⟩

theorem getLsbD_iff_div_mod {n : Nat} (v : BitVec n) (i : Nat) : v.getLsbD i = true ↔ v.toNat / 2 ^ i % 2 = 1 := by
  rw [BitVec.getLsbD, Nat.testBit_eq_decide_div_mod_eq, decide_eq_true_eq]

theorem toNat_append_eq_add {m n : Nat} (x : BitVec m) (y : BitVec n) :
    (x ++ y).toNat = 2 ^ n * x.toNat + y.toNat := by
  rw [BitVec.toNat_append, ← Nat.shiftLeft_add_eq_or_of_lt y.isLt, Nat.shiftLeft_eq, Nat.mul_comm]

/-- F is the low eight bits of the intermediate, and C its bit 8. -/
theorem AluOut.ofNine_gives {t : BitVec 9} {f : Nat} {c : Prop} (hf : t.toNat % 256 = f) (hc : 256 ≤ t.toNat ↔ c) :
    (AluOut.ofNine t).Gives f c := by
  refine ⟨by simpa [AluOut.ofNine] using hf, Iff.trans ?_ hc⟩
  have hlt : t.toNat < 512 := t.isLt
  simp only [AluOut.ofNine, getLsbD_iff_div_mod]
  omega

theorem carryIn_toNat (c : Bool) : (carryIn c).toNat = c.toNat := by cases c <;> rfl

section

variable (a b : Byte) (cin : Bool)

theorem alu_add_gives : (alu .add a b cin).Gives ((a.toNat + b.toNat) % 256) (256 ≤ a.toNat + b.toNat) := by
  apply AluOut.ofNine_gives <;> bv_omega

theorem alu_sub_gives : (alu .sub a b cin).Gives ((a.toNat + 256 - b.toNat) % 256) (a.toNat < b.toNat) := by
  apply AluOut.ofNine_gives <;> bv_omega

theorem alu_addc_gives :
    (alu .addc a b cin).Gives ((a.toNat + b.toNat + cin.toNat) % 256) (256 ≤ a.toNat + b.toNat + cin.toNat) := by
  have hcarry := carryIn_toNat cin
  have hle := cin.toNat_le
  apply AluOut.ofNine_gives <;> bv_omega

theorem alu_subc_gives :
    (alu .subc a b cin).Gives ((a.toNat + 512 - b.toNat - cin.toNat) % 256) (a.toNat < b.toNat + cin.toNat) := by
  have hcarry := carryIn_toNat cin
  have hle := cin.toNat_le
  apply AluOut.ofNine_gives <;> bv_omega

theorem alu_incA_gives : (alu .incA a b cin).Gives ((a.toNat + 1) % 256) (a.toNat = 255) := by
  apply AluOut.ofNine_gives <;> bv_omega

theorem alu_decA_gives : (alu .decA a b cin).Gives ((a.toNat + 255) % 256) (a.toNat = 0) := by
  apply AluOut.ofNine_gives <;> bv_omega

theorem alu_shl_gives : (alu .shl a b cin).Gives (2 * a.toNat % 256) (128 ≤ a.toNat) := by
  have hlt : a.toNat < 256 := a.isLt
  constructor
  · simp only [alu, toNat_append_eq_add, BitVec.extractLsb'_toNat, Nat.shiftRight_eq_div_pow, BitVec.toNat_ofNat]
    omega
  · simp only [alu, getLsbD_iff_div_mod]
    omega

theorem alu_shr_gives : (alu .shr a b cin).Gives (a.toNat / 2) (a.toNat % 2 = 1) := by
  have hlt : a.toNat < 256 := a.isLt
  constructor
  · simp only [alu, toNat_append_eq_add, BitVec.extractLsb'_toNat, Nat.shiftRight_eq_div_pow, BitVec.toNat_ofNat]
    omega
  · simp only [alu, getLsbD_iff_div_mod]
    omega

theorem alu_asr_gives :
    (alu .asr a b cin).Gives (a.toNat / 2 + (if 128 ≤ a.toNat then 128 else 0)) (a.toNat % 2 = 1) := by
  have hlt : a.toNat < 256 := a.isLt
  constructor
  · simp only [alu, toNat_append_eq_add, BitVec.extractLsb'_toNat, Nat.shiftRight_eq_div_pow]
    split <;> omega
  · simp only [alu, getLsbD_iff_div_mod]
    omega

theorem alu_notA_gives : (alu .notA a b cin).Gives (255 - a.toNat) False :=
  AluOut.gives_without_carry (by rw [BitVec.toNat_not])

end

/-- Settles O39: the order of the functions, then each function by its lemma; a function that gives no carry by its byte. -/
theorem aluFunctions : Obligations.AluFunctions := by
  refine ⟨by decide, fun a b cin => ?_⟩
  exact ⟨alu_add_gives a b cin, alu_sub_gives a b cin, alu_addc_gives a b cin, alu_subc_gives a b cin,
    AluOut.gives_without_carry (BitVec.toNat_and a b), AluOut.gives_without_carry (BitVec.toNat_or a b),
    AluOut.gives_without_carry (BitVec.toNat_xor a b), alu_notA_gives a b cin, alu_shl_gives a b cin,
    alu_shr_gives a b cin, alu_asr_gives a b cin, AluOut.gives_without_carry rfl, alu_incA_gives a b cin,
    alu_decA_gives a b cin, AluOut.gives_without_carry rfl, AluOut.gives_without_carry rfl⟩

end Sys2Proof.Machine
end

section
/-! The half cycles of the datapath (40_datapath.md R148 to R168), for every value of the M-level parameters: the read half, the
commit half of a word that fetches no opcode, the commit half of a FETCH word. -/

namespace Sys2Proof.Machine

theorem tickHalfCycle_of_read {p : MicroParams} {s : State} (hrun : s.run = .running) (hphase : s.micro.phase = .read) :
    tickHalfCycle p s = s.orRaise (readHalf p s) := by
  simp only [tickHalfCycle, hrun, hphase]

theorem tickHalfCycle_of_commit {p : MicroParams} {s : State} (hrun : s.run = .running)
    (hphase : s.micro.phase = .commit) : tickHalfCycle p s = s.orRaise (commitHalf p s) := by
  simp only [tickHalfCycle, hrun, hphase]

/-! ### The read half -/

/-- Codes 2 to 7 of BSEL are reserved (R150). -/
theorem bSel_eq_none_iff (v : BitVec 3) : bSel v = none ↔ 2 ≤ v.toNat := by
  revert v; decide

theorem bSel_eq_busByte_iff {v : BitVec 3} (h : v.toNat < 2) : bSel v = some .busByte ↔ v ≠ 0 := by
  revert v; decide

theorem fetchCombined_iff (w : ControlWord) :
    fetchCombined w = true ↔ w.rgwe = true ∨ w.busen = true ∨ w.chflg = true := by
  simp only [fetchCombined, Bool.or_eq_true, or_assoc]

theorem illFormed_iff (p : MicroParams) (w : ControlWord) :
    illFormed p w = true ↔ p.macCode w.mac = none ∨ 2 ≤ w.bsel.toNat ∨
      (p.macCode w.mac = some .fetch ∧ (w.rgwe = true ∨ w.busen = true ∨ w.chflg = true)) := by
  rw [illFormed, Bool.or_eq_true, Option.isNone_iff_eq_none, bSel_eq_none_iff, ← fetchCombined_iff]
  cases hmac : p.macCode w.mac with
  | none => simp
  | some k => cases k <;> simp

theorem readHalf_of_illFormed {p : MicroParams} {s : State} (h : illFormed p (s.controlWord p) = true) :
    readHalf p s = .error (.illegalMicroWord s.micro.mp) :=
  if_pos h

/-- The M-level state a read half leaves when the bus byte is `d` (R148, R150, R151). -/
def State.readLatches (p : MicroParams) (s : State) (d : Byte) : MicroState :=
  let w := s.controlWord p
  let ia := p.regSelect .a w.rgaa s.micro.opl
  let ib := p.regSelect .b w.rgab s.micro.opl
  let r := alu (p.aluCode w.alu) (s.reg ia) (if w.bsel = 0 then s.reg ib else d) (if w.a8 = true then true else s.flags.cf)
  { s.micro with ia := ia, ib := ib, ra := s.reg ia, rb := s.reg ib, d := d, f := r.f, c := r.c, phase := .commit }

theorem microCarry_eq (a8 cf : Bool) : microCarry a8 cf = if a8 = true then true else cf := by
  cases a8 <;> rfl

/-- The bus read is all of a well-formed word's read half that can raise. -/
theorem readHalf_of_wellFormed {p : MicroParams} {s : State} {w : ControlWord} (hw : s.controlWord p = w)
    (h : ¬ illFormed p w = true) :
    readHalf p s = (s.microBusByte w (s.reg (p.regSelect .a w.rgaa s.micro.opl))).map
      fun d => { s.sampleInputs with micro := s.readLatches p d } := by
  subst w
  have hbsel : (s.controlWord p).bsel.toNat < 2 :=
    Nat.not_le.1 fun hge => h ((illFormed_iff p _).2 (.inr (.inl hge)))
  have hsource (d b : Byte) : (if bSel (s.controlWord p).bsel = some .busByte then d else b) =
      if (s.controlWord p).bsel = 0 then b else d := by
    simp only [bSel_eq_busByte_iff hbsel, ne_eq, ite_not]
  simp only [State.readLatches, ← hsource, ← microCarry_eq]
  exact if_neg h

theorem State.microBusByte_of_reads (s : State) {w : ControlWord} (a : Byte) (h : w.busen = true ∧ w.buswr = false) :
    s.microBusByte w a = s.busRead a := by
  simp [State.microBusByte, h]

theorem State.microBusByte_of_not_reads (s : State) {w : ControlWord} (a : Byte)
    (h : ¬ (w.busen = true ∧ w.buswr = false)) : s.microBusByte w a = .ok 0#8 :=
  if_neg (by simpa using h)

/-! ### The commit half of a word that fetches no opcode -/

theorem commitHalf_of_kind {p : MicroParams} {s : State} {w : ControlWord} {k : MacKind} (hw : s.controlWord p = w)
    (hk : p.macCode w.mac = some k) (hne : k ≠ .fetch) :
    commitHalf p s = (commitBus w s).map fun t =>
      (commitHalt w.halt ((commitMicroFlags w (commitRegister w t)).setMp
        (nextAddress s.micro.mp w (s.flags.slice w.cond) k))).setPhase .read := by
  simp only [commitHalf, hw, hk]
  cases k with
  | fetch => exact absurd rfl hne
  | _ => rfl

theorem Flags.slice_eq (fl : Flags) (cond : Bool) :
    fl.slice cond = if cond = false then BitVec.ofBool fl.zf ++ BitVec.ofBool fl.cf
      else BitVec.ofBool fl.ief ++ BitVec.ofBool fl.nf := by
  cases cond <;> rfl

/-- The bit the conditional jumps test (R162). -/
theorem Flags.slice_getLsbD_zero (fl : Flags) (cond : Bool) :
    (fl.slice cond).getLsbD 0 = if cond = false then fl.cf else fl.nf := by
  obtain ⟨cf, zf, nf, ief⟩ := fl
  revert cond cf zf nf ief
  decide

/-- The flag commit by the values of MALUS (R158). -/
theorem commitMicroFlags_eq (w : ControlWord) (s : State) :
    commitMicroFlags w s = { s with
      flags := if w.chflg = false then s.flags
        else if w.malus = 2 then { s.flags with ief := true }
        else if w.malus = 3 then { s.flags with ief := false }
        else ⟨s.micro.c, decide (s.micro.f = 0), decide (128 ≤ s.micro.f.toNat), s.flags.ief⟩ } := by
  have hvalues : ∀ v : BitVec 2, v = 0 ∨ v = 1 ∨ v = 2 ∨ v = 3 := by decide
  cases hchflg : w.chflg with
  | false => simp [commitMicroFlags, hchflg]
  | true =>
    obtain hm | hm | hm | hm := hvalues w.malus <;>
      simp [commitMicroFlags, hchflg, hm, State.commitFlags_eq, State.setResultFlags, State.setIef]

@[simp] theorem commitRegister_flags (w : ControlWord) (s : State) : (commitRegister w s).flags = s.flags := by
  unfold commitRegister; split <;> rfl

@[simp] theorem commitRegister_micro (w : ControlWord) (s : State) : (commitRegister w s).micro = s.micro := by
  unfold commitRegister; split <;> rfl

@[simp] theorem commitRegister_run (w : ControlWord) (s : State) : (commitRegister w s).run = s.run := by
  unfold commitRegister; split <;> rfl

theorem commitBus_unchanged {w : ControlWord} {s t : State} (h : commitBus w s = .ok t) :
    t.flags = s.flags ∧ t.micro = s.micro ∧ t.run = s.run := by
  have ht := commitBus_ok_iff.1 h
  split at ht
  · obtain ⟨-, rfl⟩ := ht
    simp
  · simp [ht]

theorem commitBus_error_of_refused {w : ControlWord} {s : State} {e : Fault} (hw : w.busen = true ∧ w.buswr = true)
    (he : s.boot.writeCheck s.micro.ra (microWriteKind s.micro.ia) = some e) : commitBus w s = .error e := by
  rw [commitBus, if_pos (by simp [hw]), State.busWrite_error_iff.2 he]

/-! ### The commit half of a FETCH word -/

theorem commitHalf_of_fetch {p : MicroParams} {s : State} {w : ControlWord} (hw : s.controlWord p = w)
    (hk : p.macCode w.mac = some .fetch) :
    commitHalf p s = (commitFetch p (s.flags.slice w.cond) s).map fun t => (commitHalt w.halt t).setPhase .read := by
  simp only [commitHalf, hw, hk]
  rfl

section
variable {p : MicroParams} {slice : BitVec 2} {s : State}

theorem commitFetch_of_due {i : Source} (h : s.dueSource = some i) : commitFetch p slice s = s.enterInterrupt i := by
  simp only [commitFetch, h]

theorem commitFetch_of_not_readable (hdue : s.dueSource = none) (h : ¬ s.Readable s.pc) :
    commitFetch p slice s = .error (.undefinedInput s.pc) := by
  simp only [commitFetch, hdue, State.busRead_error_iff.2 ⟨h, rfl⟩]
  rfl

theorem commitFetch_of_readable (hdue : s.dueSource = none) (h : s.Readable s.pc) :
    commitFetch p slice s =
      if p.opcodeValid (s.busValue s.pc) = true then
        .ok (((s.setPc (s.pc + 1)).setOpl (s.busValue s.pc)).setMp (microAddress (p.opcEntry (s.busValue s.pc)) slice))
      else .error (.illegalOpcode s.pc) := by
  simp only [commitFetch, hdue, State.busRead_of_readable h]
  rfl

end

theorem enterInterrupt_unchanged {s t : State} {i : Source} (h : s.enterInterrupt i = .ok t) :
    t.micro = s.micro ∧ t.run = s.run := by
  obtain ⟨-, rfl⟩ := State.enterInterrupt_ok_iff.1 h
  simp

/-- The end of a commit half, as one update. -/
theorem commitHalt_setPhase_eq (halt : Bool) (s : State) (ph : Phase) :
    (commitHalt halt s).setPhase ph =
      { s with micro := { s.micro with phase := ph }, run := if halt = true then .stopped else s.run } := by
  cases halt <;> rfl

end Sys2Proof.Machine

namespace Sys2Proof.Laws
open Sys2Proof.Machine

/-- Settles O56: the read half raises before it reads anything. -/
theorem illFormedWordsRaise : Obligations.IllFormedWordsRaise := by
  intro p s hrun hphase w hill
  rw [tickHalfCycle_of_read hrun hphase, readHalf_of_illFormed ((illFormed_iff p w).2 hill), State.orRaise_error]

/-- Settles O57: the word is well-formed, and its bus read answers or raises. -/
theorem readHalf : Obligations.ReadHalf := by
  intro p s hrun hphase w ia ib reads d r hbsel hmac hfetch
  have hwf : ¬ illFormed p w = true := by
    rw [illFormed_iff]
    rintro (hnone | hge | ⟨hkind, hcombined⟩)
    · exact hmac hnone
    · exact absurd hbsel (Nat.not_lt.2 hge)
    · simp [hfetch hkind] at hcombined
  have htick : tickHalfCycle p s = s.orRaise ((s.microBusByte w (s.reg ia)).map fun v =>
      { s.sampleInputs with micro := s.readLatches p v }) :=
    (tickHalfCycle_of_read hrun hphase).trans (congrArg s.orRaise (readHalf_of_wellFormed rfl hwf))
  refine ⟨fun hreadable => ?_, fun hreads hunreadable => ?_⟩
  · have hbyte : s.microBusByte w (s.reg ia) = .ok d := by
      by_cases hreads : reads
      · rw [State.microBusByte_of_reads s _ hreads, State.busRead_of_readable (hreadable hreads)]
        exact congrArg _ (if_pos hreads).symm
      · rw [State.microBusByte_of_not_reads s _ hreads]
        exact congrArg _ (if_neg hreads).symm
    rw [htick, hbyte]
    rfl
  · rw [htick, State.microBusByte_of_reads s _ hreads, State.busRead_error_iff.2 ⟨hunreadable, rfl⟩]
    rfl

/-- Settles O58: the bus write answers or is refused, and what follows it is by the equations of its parts. -/
theorem commitHalf : Obligations.CommitHalf := by
  intro p s k hrun hphase w m kind writes t u fl flags slice low next hi hk hne
  have htick : tickHalfCycle p s = s.orRaise ((commitBus w s).map fun t =>
      (commitHalt w.halt ((commitMicroFlags w (commitRegister w t)).setMp
        (nextAddress m.mp w (fl.slice w.cond) k))).setPhase .read) :=
    (tickHalfCycle_of_commit hrun hphase).trans (congrArg s.orRaise (commitHalf_of_kind rfl hk hne))
  refine ⟨fun hcheck => ?_, fun e hw he => ?_⟩
  · have hbus : commitBus w s = .ok t := by
      rw [commitBus_ok_iff]
      by_cases hw : writes
      · rw [if_pos hw]
        exact ⟨hcheck hw, if_pos hw⟩
      · rw [if_neg hw]
        exact if_neg hw
    have ⟨htflags, htmicro, htrun⟩ := commitBus_unchanged hbus
    have hu : commitRegister w t = u := by
      rw [commitRegister, htmicro]
      rfl
    have hflags : u.flags = fl := by rw [← hu, commitRegister_flags, htflags]
    have hmicro : u.micro = m := by rw [← hu, commitRegister_micro, htmicro]
    have hstill : u.run = .running := by rw [← hu, commitRegister_run, htrun, hrun]
    have hnext : nextAddress m.mp w (fl.slice w.cond) k = hi ++ slice := by
      have hslice : fl.slice w.cond = slice := Flags.slice_eq fl w.cond
      have hlow : slice.getLsbD 0 = low := hslice ▸ Flags.slice_getLsbD_zero fl w.cond
      cases k <;> simp only [nextAddress, microAddress, hlow, hslice, hi, next]
    rw [htick, hbus, hnext]
    simp only [Except.map, State.orRaise_ok, commitHalt_setPhase_eq, State.setMp, hu, commitMicroFlags_eq, hflags, hmicro,
      hstill]
    rfl
  · rw [htick, commitBus_error_of_refused hw he]
    rfl

/-- Settles O59: by what the commit half finds, a due interrupt or an opcode to fetch. -/
theorem fetchCommit : Obligations.FetchCommit := by
  intro p s hrun hphase w m fl slice op run hk
  have htick : tickHalfCycle p s = s.orRaise ((commitFetch p slice s).map fun t =>
      (commitHalt w.halt t).setPhase .read) := by
    have hslice : fl.slice w.cond = slice := Flags.slice_eq fl w.cond
    exact (tickHalfCycle_of_commit hrun hphase).trans (congrArg s.orRaise (hslice ▸ commitHalf_of_fetch rfl hk))
  refine ⟨fun i t hdue hentry => ?entered, fun i e hdue hentry => ?refused,
    fun hdue hreadable => ⟨fun hvalid => ?fetched, fun hillegal => ?illegal⟩, fun hdue hunreadable => ?undefined⟩
  case entered =>
    obtain ⟨hmicro, hstill⟩ := enterInterrupt_unchanged hentry
    rw [htick, commitFetch_of_due hdue, hentry]
    simp only [Except.map, State.orRaise_ok, commitHalt_setPhase_eq, hmicro, hstill, hrun, m, run]
  case refused =>
    rw [htick, commitFetch_of_due hdue, hentry]
    rfl
  case fetched =>
    rw [htick, commitFetch_of_readable hdue hreadable, if_pos hvalid]
    simp only [Except.map, State.orRaise_ok, commitHalt_setPhase_eq, State.setMp_run, State.setOpl_run, State.setPc_run,
      hrun]
    rfl
  case illegal =>
    rw [htick, commitFetch_of_readable hdue hreadable, if_neg (by simp [op, hillegal])]
    rfl
  case undefined =>
    rw [htick, commitFetch_of_not_readable hdue hunreadable]
    rfl

end Sys2Proof.Laws
end

section
/-! Control flow (41_control_flow.md R200 to R213): what each instruction of the family answers, from its body and its length. -/

namespace Sys2Proof.Machine

/-- The error side of `exec_of_run`: a body that raises leaves the state the instruction began in, but for the run state. -/
theorem exec_of_run_error {i : Instr} {s : State} {e : Fault}
    (h : (bodyOf i).run (s.setPc (s.pc + BitVec.ofNat 8 i.length)) = .error e) : exec i s = .next (s.raise e) :=
  (exec_eq_instruction i s).trans (instruction_error h)

/-- The jump's body with its two ways as one PC update: not taken, the PC stays where the instruction moved it. -/
theorem jumpIf_eq (c : Bool) (t : Byte) (s : State) : jumpIf c t s = .ok (s.setPc (if c = true then t else s.pc)) := by
  cases c <;> rfl

/-- Every two-byte instruction with the body of a jump, its condition read as a proposition about the flags. -/
theorem exec_of_bodyOf_jump {i : Instr} {cond : Flags → Bool} {t : Byte} {s : State} {taken : Prop} [Decidable taken]
    (hbody : bodyOf i = .jump cond t) (hlen : i.length = 2) (htaken : cond s.flags = true ↔ taken) :
    exec i s = .next (s.setPc (if taken then t else s.pc + 2)) := by
  have hrun : (bodyOf i).run (s.setPc (s.pc + BitVec.ofNat 8 i.length)) =
      .ok (s.setPc (if cond s.flags = true then t else s.pc + 2)) := by
    rw [hbody, hlen]
    exact jumpIf_eq _ t _
  rw [exec_of_run hrun, if_congr htaken rfl rfl]

/-- The push check (20_memory.md R66): only a slot outside a stack region that exists is refused. -/
theorem State.pushAllowed_iff (s : State) :
    s.PushAllowed ↔ s.boot.stackSize = .s0 ∨ s.boot.inStack (s.sp - 1) = true := by
  rw [State.PushAllowed, BootConfig.writeCheck_stack_eq, ite_eq_right_iff, or_iff_not_imp_left]
  simp

/-- The body of `CALL` stores the PC it begins with, and the store itself does not depend on the PC. -/
theorem callOp_setPc {s : State} (h : s.PushAllowed) (next t : Byte) :
    callOp t (s.setPc next) = .ok (((s.store (s.sp - 1) next).setSp (s.sp - 1)).setPc t) := by
  refine callOp_ok_iff.2 ⟨h, ?_⟩
  rw [State.setPc_eq_setReg s next, State.store_setReg]
  rfl

/-- Settles O19: each jump by its flag condition; `JR` takes its jump under every flag. -/
theorem jumpResults : Obligations.JumpResults := fun _ _ =>
  ⟨⟨exec_of_bodyOf_jump (taken := True) rfl rfl (by simp), rfl⟩,
    ⟨exec_of_bodyOf_jump rfl rfl .rfl, rfl⟩, ⟨exec_of_bodyOf_jump rfl rfl (by simp), rfl⟩,
    ⟨exec_of_bodyOf_jump rfl rfl .rfl, rfl⟩, ⟨exec_of_bodyOf_jump rfl rfl (by simp), rfl⟩,
    ⟨exec_of_bodyOf_jump rfl rfl .rfl, rfl⟩, ⟨exec_of_bodyOf_jump rfl rfl (by simp), rfl⟩⟩

/-- Settles O20: the call's push answers or raises, by the push check. -/
theorem callResult : Obligations.CallResult := by
  intro s t
  refine ⟨rfl, fun hpush => ?pushed, fun hsize hslot => ?refused, s.pushAllowed_iff⟩
  case pushed => exact exec_of_run (i := .call t) (callOp_setPc hpush (s.pc + 2) t)
  case refused =>
    have hpush : ¬ s.PushAllowed := fun h =>
      (s.pushAllowed_iff.1 h).elim hsize (ne_true_of_eq_false hslot)
    exact exec_of_run_error (i := .call t) (callOp_error_iff.2 ⟨hpush, rfl⟩)

/-- Settles O21: the pop answers or raises, by whether the slot can be read. -/
theorem retResult : Obligations.RetResult := fun _ =>
  ⟨rfl, fun hread => exec_of_run (i := .ret) (returnOp_ok_iff.2 ⟨hread, rfl⟩),
    fun hunreadable => exec_of_run_error (i := .ret) (returnOp_error_iff.2 ⟨hunreadable, rfl⟩)⟩

/-- Settles O22: as `RET`, by the return from an interrupt. -/
theorem retiResult : Obligations.RetiResult := fun _ =>
  ⟨rfl, fun hread => exec_of_run (i := .reti) (State.returnFromInterrupt_ok_iff.2 ⟨hread, rfl⟩),
    fun hunreadable => exec_of_run_error (i := .reti) (State.returnFromInterrupt_error_iff.2 ⟨hunreadable, rfl⟩)⟩

/-- Settles O23: the four bodies answer in every state, each by one update of it past the instruction. -/
theorem stopEiDiNopResults : Obligations.StopEiDiNopResults := fun _ =>
  ⟨⟨exec_of_run (i := .stop) rfl, rfl⟩, ⟨exec_of_run (i := .ei) rfl, rfl⟩, ⟨exec_of_run (i := .di) rfl, rfl⟩,
    ⟨exec_of_run (i := .nop) rfl, rfl⟩⟩

end Sys2Proof.Machine
end

section
/-! The errors of an instruction's operand accesses (30_encoding.md R120; 60_exceptions.md R305): the operand reads of a body, in
order, tied to the model's table, and the first refused access as the error of every instruction but `CALL`, whose one write is
a push. -/

namespace Sys2Proof.Machine

/-! ### The operand reads of a body -/

/-- The bus address an operand names. -/
def Operand.addr : Operand → Option Byte
  | .place p => p.addr
  | .imm _ => none

/-- The addresses a body reads its operands from, in the order of the reads. -/
def Body.operandReads (s : State) : Body → List Byte
  | .two _ _ _ dst src => dst.addr.toList ++ src.addr.toList
  | .one _ rd _ p => if rd then p.addr.toList else []
  | .bit _ _ p _ => p.addr.toList
  | .move _ src => src.addr.toList
  | .ret | .reti => [s.sp]
  | _ => []

theorem operandReads_bodyOf (s : State) (i : Instr) : (bodyOf i).operandReads s = operandReads s i := by
  cases i <;> rfl

theorem Body.operandReads_setPc (b : Body) (s : State) (v : Byte) : b.operandReads (s.setPc v) = b.operandReads s := by
  cases b <;> rfl

theorem Place.addr_eq_some_iff {p : Place} {a : Byte} : p.addr = some a ↔ p = .mem a := by
  cases p <;> simp [Place.addr]

theorem Operand.addr_eq_some_iff {o : Operand} {a : Byte} : o.addr = some a ↔ o = .place (.mem a) := by
  cases o <;> simp [Operand.addr, Place.addr_eq_some_iff]

theorem State.placeReadable_iff {s : State} {p : Place} : s.PlaceReadable p ↔ ∀ a ∈ p.addr.toList, s.Readable a := by
  cases p <;> simp [State.PlaceReadable, Place.addr]

theorem State.operandReadable_iff {s : State} {o : Operand} :
    s.OperandReadable o ↔ ∀ a ∈ o.addr.toList, s.Readable a := by
  cases o with
  | place p => exact State.placeReadable_iff
  | imm n => simp [State.OperandReadable, Operand.addr]

theorem State.readPlace_error_of_mem {s : State} {p : Place} {a : Byte} (h : a ∈ p.addr.toList) (ha : ¬ s.Readable a) :
    s.readPlace p = .error (.undefinedInput a) :=
  State.readPlace_error_iff.2 ⟨a, Place.addr_eq_some_iff.1 (Option.mem_toList.1 h), ha, rfl⟩

theorem State.readOperand_error_of_mem {s : State} {o : Operand} {a : Byte} (h : a ∈ o.addr.toList)
    (ha : ¬ s.Readable a) : s.readOperand o = .error (.undefinedInput a) :=
  State.readOperand_error_iff.2 ⟨a, Operand.addr_eq_some_iff.1 (Option.mem_toList.1 h), ha, rfl⟩

/-! ### The first refused access of a body -/

/-- A destination that cannot be read is the first address of the reads, so no readable address stands before it. -/
theorem Body.run_two_error_of_first_unreadable {fn : AluFn} {useCf wb : Bool} {dst : Place} {src : Operand} {s : State}
    {before after : List Byte} {a : Byte} (hreads : dst.addr.toList ++ src.addr.toList = before ++ a :: after)
    (hbefore : ∀ b ∈ before, s.Readable b) (ha : ¬ s.Readable a) :
    twoOp fn useCf wb dst src s = .error (.undefinedInput a) := by
  have hmem : a ∈ dst.addr.toList ++ src.addr.toList := by simp [hreads]
  rw [twoOp_error_iff]
  by_cases hdst : s.PlaceReadable dst
  · have hsrc : a ∈ src.addr.toList :=
      (List.mem_append.1 hmem).resolve_left fun h => ha (State.placeReadable_iff.1 hdst a h)
    exact .inr ⟨hdst, .inl (State.readOperand_error_of_mem hsrc ha)⟩
  · cases dst with
    | reg r => exact absurd trivial hdst
    | mem c =>
      cases before with
      | nil =>
        obtain rfl : c = a := (List.cons.inj hreads).1
        exact .inl (State.readPlace_error_iff.2 ⟨c, rfl, ha, rfl⟩)
      | cons b bs =>
        obtain rfl : c = b := (List.cons.inj hreads).1
        exact absurd (hbefore c List.mem_cons_self) hdst

/-- A body whose reads meet an unreadable address raises `UndefinedInput` with the first of them. -/
theorem Body.run_error_of_first_unreadable {b : Body} {s : State} {before after : List Byte} {a : Byte}
    (hreads : b.operandReads s = before ++ a :: after) (hbefore : ∀ c ∈ before, s.Readable c) (ha : ¬ s.Readable a) :
    b.run s = .error (.undefinedInput a) := by
  have hmem : a ∈ b.operandReads s := by simp [hreads]
  cases b with
  | two fn useCf wb dst src => exact Body.run_two_error_of_first_unreadable hreads hbefore ha
  | one fn rd wb p =>
    cases rd with
    | false => cases hmem
    | true => exact oneOp_error_iff.2 (.inl ⟨rfl, State.readPlace_error_of_mem hmem ha⟩)
  | bit fn wb p m => exact bitOp_error_iff.2 (.inl (State.readPlace_error_of_mem hmem ha))
  | move dst src => exact moveOp_error_iff.2 (.inl (State.readOperand_error_of_mem hmem ha))
  | ret =>
    obtain rfl := List.mem_singleton.1 hmem
    exact returnOp_error_iff.2 ⟨ha, rfl⟩
  | reti =>
    obtain rfl := List.mem_singleton.1 hmem
    exact State.returnFromInterrupt_error_iff.2 ⟨ha, rfl⟩
  | _ => cases hmem

/-- A body whose reads are all allowed raises `OutOfBoundsWrite` with the address of its refused data write. -/
theorem Body.run_error_of_unwritable {b : Body} {s : State} {a : Byte} (hcall : ∀ t, b ≠ .call t)
    (hreads : ∀ c ∈ b.operandReads s, s.Readable c) (hstore : b.storeAddr s = some a) (ha : ¬ s.Writable a) :
    b.run s = .error (.outOfBoundsWrite a) := by
  have refused {p : Place} (hp : p.addr = some a) :
      ∃ c, p = .mem c ∧ ¬ s.Writable c ∧ Fault.outOfBoundsWrite a = .outOfBoundsWrite c :=
    ⟨a, Place.addr_eq_some_iff.1 hp, ha, rfl⟩
  cases b with
  | two fn useCf wb dst src =>
    cases wb with
    | false => cases hstore
    | true =>
      have hdst := State.placeReadable_iff.2 fun c hc => hreads c (List.mem_append_left _ hc)
      have hsrc := State.operandReadable_iff.2 fun c hc => hreads c (List.mem_append_right _ hc)
      exact twoOp_error_iff.2 (.inr ⟨hdst, .inr ⟨hsrc, rfl, refused hstore⟩⟩)
  | one fn rd wb p =>
    cases wb with
    | false => cases hstore
    | true =>
      refine oneOp_error_iff.2 (.inr ⟨fun hrd => ?_, rfl, refused hstore⟩)
      subst hrd
      exact State.placeReadable_iff.2 hreads
  | bit fn wb p m =>
    cases wb with
    | false => cases hstore
    | true => exact bitOp_error_iff.2 (.inr ⟨State.placeReadable_iff.2 hreads, rfl, refused hstore⟩)
  | move dst src => exact moveOp_error_iff.2 (.inr ⟨State.operandReadable_iff.2 hreads, refused hstore⟩)
  | call t => exact absurd rfl (hcall t)
  | _ => cases hstore

/-! ### The errors of an instruction -/

/-- `CALL` is the only instruction with the body that pushes. -/
theorem eq_call_of_bodyOf {i : Instr} {t : Byte} (h : bodyOf i = .call t) : i = .call t := by
  cases i with
  | call a => cases h; rfl
  | _ => cases h

/-- The errors of every instruction without a push, from its own operand reads and its own store. -/
theorem State.raisesFor (s : State) {i : Instr} (hcall : ∀ t, i ≠ .call t) :
    s.RaisesFor i (operandReads s i) (storeAddr s i) := by
  have hreads (v : Byte) : (bodyOf i).operandReads (s.setPc v) = operandReads s i := by
    rw [Body.operandReads_setPc, operandReads_bodyOf]
  have hstore (v : Byte) : (bodyOf i).storeAddr (s.setPc v) = storeAddr s i := by
    rw [Body.storeAddr_setPc, storeAddr_bodyOf]
  constructor
  · intro before a after hsplit hbefore ha
    exact exec_of_run_error (Body.run_error_of_first_unreadable ((hreads _).trans hsplit) hbefore ha)
  · intro hallowed a hwrite ha
    refine exec_of_run_error (Body.run_error_of_unwritable (fun t h => hcall t (eq_call_of_bodyOf h)) ?_
      ((hstore _).trans hwrite) ha)
    rw [hreads]
    exact hallowed

end Sys2Proof.Machine
end

section
/-! Data move (42_data_move.md R220 to R223). Every form of `MOV`, and `LD` and `ST`, is a move between two operands; one lemma
says what it answers with its accesses allowed, and `State.raisesFor` says the rest. -/

namespace Sys2Proof.Machine

/-- A move with its two accesses allowed: the source is read with the PC past the instruction, and the destination takes it. -/
theorem exec_of_bodyOf_move {i : Instr} {dst : Place} {src : Operand} {s : State} (hbody : bodyOf i = .move dst src)
    (hsrc : s.OperandReadable src) (hdst : s.PlaceWritable dst) :
    let t := s.setPc (s.pc + BitVec.ofNat 8 i.length)
    exec i s = .next (t.putPlace dst (t.operandValue src)) := by
  intro t
  have hsrc' : t.OperandReadable src := State.operandReadable_iff.2 (State.operandReadable_iff.1 hsrc)
  have hdst' : t.PlaceWritable dst := by
    cases dst with
    | reg r => trivial
    | mem a => exact hdst
  have hrun : (bodyOf i).run t = .ok (t.putPlace dst (t.operandValue src)) := by
    rw [hbody]
    exact moveOp_ok_iff.2 ⟨hsrc', hdst', rfl⟩
  exact exec_of_run hrun

/-- Settles O24: each mode is a move between its two operands, with the errors its reads and its store can have. -/
theorem movResult : Obligations.MovResult := by
  refine ⟨fun _ _ _ _ _ => ⟨rfl, rfl, rfl, rfl, rfl, rfl⟩, fun s d r a b n => ?_⟩
  exact ⟨exec_of_bodyOf_move (i := .movRR d r) rfl trivial trivial,
    exec_of_bodyOf_move (i := .movRI d n) rfl trivial trivial,
    fun hread => exec_of_bodyOf_move (i := .movRM d b) rfl hread trivial,
    fun hwrite => exec_of_bodyOf_move (i := .movMR a r) rfl trivial hwrite,
    fun hread hwrite => exec_of_bodyOf_move (i := .movMM a b) rfl hread hwrite,
    fun hwrite => exec_of_bodyOf_move (i := .movMI a n) rfl trivial hwrite,
    s.raisesFor nofun, s.raisesFor nofun, s.raisesFor nofun, s.raisesFor nofun⟩

/-- Settles O25: `LD` and `ST` are moves of one access each, which answers or raises. -/
theorem ldStResults : Obligations.LdStResults := by
  intro s r a
  refine ⟨rfl, rfl, fun hread => ?loaded, fun hunreadable => ?notRead, fun hwrite => ?stored, fun hrefused => ?notWritten⟩
  case loaded => exact exec_of_bodyOf_move (i := .ld r a) rfl hread trivial
  case notRead =>
    obtain ⟨hraise, -⟩ := s.raisesFor (i := .ld r a) nofun
    exact hraise [] a [] rfl nofun hunreadable
  case stored => exact exec_of_bodyOf_move (i := .st a r) rfl trivial hwrite
  case notWritten =>
    obtain ⟨-, hraise⟩ := s.raisesFor (i := .st a r) nofun
    exact hraise nofun a rfl hrefused

/-- Settles O26: the body of `LDSP` answers in every state, with no check of its byte. -/
theorem ldspResult : Obligations.LdspResult := fun _ _ => ⟨exec_of_run (i := .ldsp _) rfl, rfl⟩

end Sys2Proof.Machine
end

section
/-! The ALU's outputs as bytes and carries, in the operations the statements of 43_alu.md are written in: each from what the ALU
gives on numbers. -/

namespace Sys2Proof.Machine

/-- An output is fixed by the number of its byte and by when its carry is set. -/
theorem AluOut.eq_of_gives {o : AluOut} {n : Nat} {p : Prop} {f : Byte} {c : Bool} (h : o.Gives n p) (hf : f.toNat = n)
    (hc : c = true ↔ p) : o = ⟨f, c⟩ := by
  obtain ⟨hof, hoc⟩ := h
  cases o
  exact congrArg₂ AluOut.mk (BitVec.eq_of_toNat_eq (hof.trans hf.symm)) (Bool.eq_iff_iff.2 (hoc.trans hc.symm))

section

variable (a b : Byte) (cin : Bool)

theorem alu_add_eq : alu .add a b cin = ⟨a + b, decide (256 ≤ a.toNat + b.toNat)⟩ :=
  AluOut.eq_of_gives (alu_add_gives a b cin) (BitVec.toNat_add a b) decide_eq_true_iff

theorem alu_addc_eq :
    alu .addc a b cin = ⟨a + b + BitVec.ofNat 8 cin.toNat, decide (256 ≤ a.toNat + b.toNat + cin.toNat)⟩ :=
  AluOut.eq_of_gives (alu_addc_gives a b cin) (by simp [BitVec.toNat_add]) decide_eq_true_iff

theorem alu_sub_eq : alu .sub a b cin = ⟨a - b, decide (a.toNat < b.toNat)⟩ :=
  AluOut.eq_of_gives (alu_sub_gives a b cin) (by bv_omega) decide_eq_true_iff

theorem alu_subc_eq :
    alu .subc a b cin = ⟨a - b - BitVec.ofNat 8 cin.toNat, decide (a.toNat < b.toNat + cin.toNat)⟩ := by
  have hle := cin.toNat_le
  exact AluOut.eq_of_gives (alu_subc_gives a b cin) (by bv_omega) decide_eq_true_iff

theorem alu_incA_eq : alu .incA a b cin = ⟨a + 1, decide (a = 0xFF#8)⟩ :=
  AluOut.eq_of_gives (alu_incA_gives a b cin) (BitVec.toNat_add a 1) (decide_eq_true_iff.trans BitVec.toNat_inj.symm)

theorem alu_decA_eq : alu .decA a b cin = ⟨a - 1, decide (a = 0x00#8)⟩ :=
  AluOut.eq_of_gives (alu_decA_gives a b cin) (by bv_omega) (decide_eq_true_iff.trans BitVec.toNat_inj.symm)

theorem alu_notA_eq : alu .notA a b cin = ⟨0xFF#8 - a, false⟩ :=
  AluOut.eq_of_gives (alu_notA_gives a b cin) (by bv_omega) (by simp)

theorem alu_shl_eq : alu .shl a b cin = ⟨BitVec.ofNat 8 (2 * a.toNat), decide (128 ≤ a.toNat)⟩ :=
  AluOut.eq_of_gives (alu_shl_gives a b cin) (BitVec.toNat_ofNat _ _) decide_eq_true_iff

theorem alu_shr_eq : alu .shr a b cin = ⟨BitVec.ofNat 8 (a.toNat / 2), decide (a.toNat % 2 = 1)⟩ :=
  AluOut.eq_of_gives (alu_shr_gives a b cin) (by bv_omega) decide_eq_true_iff

/-- Half of a negative number, rounded down, has bit 7 set again: the floor of `(x - 256) / 2` is `x / 2 - 128`. -/
theorem ofInt_half_toNat (x : Byte) :
    (BitVec.ofInt 8 (x.toInt / 2)).toNat = x.toNat / 2 + (if 128 ≤ x.toNat then 128 else 0) := by
  rw [BitVec.toNat_ofInt, BitVec.toInt_eq_toNat_cond]
  split <;> split <;> omega

theorem alu_asr_eq : alu .asr a b cin = ⟨BitVec.ofInt 8 (a.toInt / 2), decide (a.toNat % 2 = 1)⟩ :=
  AluOut.eq_of_gives (alu_asr_gives a b cin) (ofInt_half_toNat a) decide_eq_true_iff

end

end Sys2Proof.Machine
end

section
/-! The instructions of 43_alu.md by their bodies: one lemma says what a two-operand instruction answers with its accesses
allowed (R230), one what a one-operand instruction does (R239), and `State.raisesFor` says the rest. An obligation is then the
forms of its instruction and the equation of its ALU function. -/

namespace Sys2Proof.Machine

/-! ### Accesses from the PC past the instruction -/

theorem State.setPc_placeReadable {s : State} {v : Byte} {p : Place} : (s.setPc v).PlaceReadable p ↔ s.PlaceReadable p := by
  cases p <;> rfl

theorem State.setPc_placeWritable {s : State} {v : Byte} {p : Place} : (s.setPc v).PlaceWritable p ↔ s.PlaceWritable p := by
  cases p <;> rfl

theorem State.setPc_operandReadable {s : State} {v : Byte} {o : Operand} :
    (s.setPc v).OperandReadable o ↔ s.OperandReadable o := by
  cases o with
  | place p => exact State.setPc_placeReadable
  | imm n => rfl

/-! ### The two-operand instructions -/

/-- An instruction is the two-operand body on `dst` and `src`, in `len` bytes. -/
structure IsTwoOp (fn : AluFn) (useCf wb : Bool) (i : Instr) (dst : Place) (src : Operand) (len : Nat) : Prop where
  body : bodyOf i = .two fn useCf wb dst src
  length : i.length = len

section

variable {fn : AluFn} {useCf wb : Bool} {i : Instr} {dst : Place} {src : Operand} {len : Nat} {s : State}

/-- A two-operand instruction with its accesses allowed: the operands are read with the PC past the instruction, the destination
takes the result where it is written back, and the flags take the ALU's outputs. -/
theorem IsTwoOp.exec_eq {val : Byte → Byte → Bool → Byte} {carry : Byte → Byte → Bool → Bool}
    (h : IsTwoOp fn useCf wb i dst src len)
    (halu : ∀ x y c, alu fn x y (useCf && c) = ⟨val x y c, carry x y c⟩)
    (hdst : s.PlaceReadable dst) (hsrc : s.OperandReadable src) (hwrite : wb = true → s.PlaceWritable dst) :
    let t := s.setPc (s.pc + BitVec.ofNat 8 len)
    let x := t.placeValue dst
    let y := t.operandValue src
    let v := val x y s.flags.cf
    exec i s = .next ((if wb then t.putPlace dst v else t).setResultFlags v (carry x y s.flags.cf)) := by
  obtain ⟨hbody, rfl⟩ := h
  refine exec_of_run ?_
  rw [hbody]
  refine twoOp_ok_iff.2 ⟨State.setPc_placeReadable.2 hdst, State.setPc_operandReadable.2 hsrc,
    fun hwb => State.setPc_placeWritable.2 (hwrite hwb), ?_⟩
  rw [State.commitFlags_eq, State.setPc_flags, halu]

/-- Its errors: the destination is read before the source, and the destination is what it stores to. -/
theorem IsTwoOp.raisesFor (h : IsTwoOp fn useCf wb i dst src len) :
    s.RaisesFor i (dst.addr.toList ++ src.addr.toList) (if wb then dst.addr else none) := by
  have hraises := s.raisesFor (i := i) fun t ht => by cases ht ▸ h.body
  rwa [← operandReads_bodyOf, ← storeAddr_bodyOf, h.body] at hraises

end

/-- The six modes of a two-operand instruction, each with its operands and its length (30_encoding.md R103, R111). -/
structure TwoOpForms (fn : AluFn) (useCf wb : Bool) (rr : Reg → Reg → Instr) (ri rm : Reg → Byte → Instr)
    (mr : Byte → Reg → Instr) (mm mi : Byte → Byte → Instr) : Prop where
  rr : ∀ d r, IsTwoOp fn useCf wb (rr d r) (.reg d) (.place (.reg r)) 2
  ri : ∀ d n, IsTwoOp fn useCf wb (ri d n) (.reg d) (.imm n) 3
  rm : ∀ d b, IsTwoOp fn useCf wb (rm d b) (.reg d) (.place (.mem b)) 3
  mr : ∀ a r, IsTwoOp fn useCf wb (mr a r) (.mem a) (.place (.reg r)) 3
  mm : ∀ a b, IsTwoOp fn useCf wb (mm a b) (.mem a) (.place (.mem b)) 3
  mi : ∀ a n, IsTwoOp fn useCf wb (mi a n) (.mem a) (.imm n) 3

/-- What an instruction that writes back does in its six modes follows from its forms and its ALU function. -/
theorem TwoOpForms.result {fn : AluFn} {useCf : Bool} {rr : Reg → Reg → Instr} {ri rm : Reg → Byte → Instr}
    {mr : Byte → Reg → Instr} {mm mi : Byte → Byte → Instr} {val : Byte → Byte → Bool → Byte}
    {carry : Byte → Byte → Bool → Bool} (h : TwoOpForms fn useCf true rr ri rm mr mm mi)
    (halu : ∀ x y c, alu fn x y (useCf && c) = ⟨val x y c, carry x y c⟩) :
    TwoOpResult rr ri rm mr mm mi val carry := fun _ d r a b n =>
  ⟨(h.rr d r).exec_eq halu trivial trivial fun _ => trivial,
    (h.ri d n).exec_eq halu trivial trivial fun _ => trivial,
    fun hb => (h.rm d b).exec_eq halu trivial hb fun _ => trivial,
    fun ha hw => (h.mr a r).exec_eq halu ha trivial fun _ => hw,
    fun ha hb hw => (h.mm a b).exec_eq halu ha hb fun _ => hw,
    fun ha hw => (h.mi a n).exec_eq halu ha trivial fun _ => hw,
    (h.rm d b).raisesFor, (h.mr a r).raisesFor, (h.mm a b).raisesFor, (h.mi a n).raisesFor⟩

/-! ### The one-operand instructions -/

/-- An instruction is the one-operand body on `p`, in `len` bytes. -/
structure IsOneOp (fn : AluFn) (rd wb : Bool) (i : Instr) (p : Place) (len : Nat) : Prop where
  body : bodyOf i = .one fn rd wb p
  length : i.length = len

section

variable {fn : AluFn} {rd wb : Bool} {i : Instr} {p : Place} {len : Nat} {s : State}

/-- A one-operand instruction with its accesses allowed; one that does not read its operand works on 0. -/
theorem IsOneOp.exec_eq {val : Byte → Byte} {carry : Byte → Bool} (h : IsOneOp fn rd wb i p len)
    (halu : ∀ x, alu fn x 0#8 false = ⟨val x, carry x⟩)
    (hread : rd = true → s.PlaceReadable p) (hwrite : wb = true → s.PlaceWritable p) :
    let t := s.setPc (s.pc + BitVec.ofNat 8 len)
    let x := if rd then t.placeValue p else 0#8
    exec i s = .next ((if wb then t.putPlace p (val x) else t).setResultFlags (val x) (carry x)) := by
  obtain ⟨hbody, rfl⟩ := h
  refine exec_of_run ?_
  rw [hbody]
  refine oneOp_ok_iff.2 ⟨fun hrd => State.setPc_placeReadable.2 (hread hrd),
    fun hwb => State.setPc_placeWritable.2 (hwrite hwb), ?_⟩
  rw [State.commitFlags_eq, halu]

/-- Its errors: the operand is the one read, if it is read, and the one store, if the result is written back. -/
theorem IsOneOp.raisesFor (h : IsOneOp fn rd wb i p len) :
    s.RaisesFor i (if rd then p.addr.toList else []) (if wb then p.addr else none) := by
  have hraises := s.raisesFor (i := i) fun t ht => by cases ht ▸ h.body
  rwa [← operandReads_bodyOf, ← storeAddr_bodyOf, h.body] at hraises

end

/-- The two forms of a one-operand instruction (30_encoding.md R103, R111). -/
structure OneOpForms (fn : AluFn) (rd wb : Bool) (reg : Reg → Instr) (mem : Byte → Instr) : Prop where
  reg : ∀ r, IsOneOp fn rd wb (reg r) (.reg r) 1
  mem : ∀ a, IsOneOp fn rd wb (mem a) (.mem a) 2

/-- What an instruction that reads its operand and writes back does in its two forms follows from the forms and its ALU
function. -/
theorem OneOpForms.result {fn : AluFn} {reg : Reg → Instr} {mem : Byte → Instr} {val : Byte → Byte} {carry : Byte → Bool}
    (h : OneOpForms fn true true reg mem) (halu : ∀ x, alu fn x 0#8 false = ⟨val x, carry x⟩) :
    OneOpResult reg mem val carry := fun _ r a =>
  ⟨(h.reg r).exec_eq halu (fun _ => trivial) fun _ => trivial,
    fun ha hw => (h.mem a).exec_eq halu (fun _ => ha) fun _ => hw, (h.mem a).raisesFor⟩

/-- Byte 0 of format UR is the operation's first byte 0 plus the register's field, and that of UM is 4 more than the first. -/
theorem opUnary_eq_add : ∀ u : BitVec 3,
    (∀ r : BitVec 2, opUnary u 0 r = opUnary u 0 0 + (0#6 ++ r)) ∧ opUnary u 1 0 = opUnary u 0 0 + 4 := by
  decide

theorem oneOpBytes_of_opUnary {reg : Reg → Instr} {mem : Byte → Instr} (u : BitVec 3)
    (hreg : ∀ r, encode (reg r) = [opUnary u 0 r.toField]) (hmem : ∀ a, encode (mem a) = [opUnary u 1 0, a]) :
    OneOpBytes reg mem (opUnary u 0 0) := by
  obtain ⟨hfield, hform⟩ := opUnary_eq_add u
  exact fun r a => ⟨by rw [hreg, hfield, regByte], by rw [hmem, hform]⟩

/-! ### The forms of each instruction -/

theorem add_forms : TwoOpForms .add false true .addRR .addRI .addRM .addMR .addMM .addMI := by
  constructor <;> exact fun _ _ => ⟨rfl, rfl⟩

theorem adc_forms : TwoOpForms .addc true true .adcRR .adcRI .adcRM .adcMR .adcMM .adcMI := by
  constructor <;> exact fun _ _ => ⟨rfl, rfl⟩

theorem sub_forms : TwoOpForms .sub false true .subRR .subRI .subRM .subMR .subMM .subMI := by
  constructor <;> exact fun _ _ => ⟨rfl, rfl⟩

theorem sbc_forms : TwoOpForms .subc true true .sbcRR .sbcRI .sbcRM .sbcMR .sbcMM .sbcMI := by
  constructor <;> exact fun _ _ => ⟨rfl, rfl⟩

theorem and_forms : TwoOpForms .and false true .andRR .andRI .andRM .andMR .andMM .andMI := by
  constructor <;> exact fun _ _ => ⟨rfl, rfl⟩

theorem or_forms : TwoOpForms .or false true .orRR .orRI .orRM .orMR .orMM .orMI := by
  constructor <;> exact fun _ _ => ⟨rfl, rfl⟩

theorem xor_forms : TwoOpForms .xor false true .xorRR .xorRI .xorRM .xorMR .xorMM .xorMI := by
  constructor <;> exact fun _ _ => ⟨rfl, rfl⟩

theorem cmp_forms : TwoOpForms .sub false false .cmpRR .cmpRI .cmpRM .cmpMR .cmpMM .cmpMI := by
  constructor <;> exact fun _ _ => ⟨rfl, rfl⟩

theorem inc_forms : OneOpForms .incA true true .incR .incM := ⟨fun _ => ⟨rfl, rfl⟩, fun _ => ⟨rfl, rfl⟩⟩

theorem dec_forms : OneOpForms .decA true true .decR .decM := ⟨fun _ => ⟨rfl, rfl⟩, fun _ => ⟨rfl, rfl⟩⟩

theorem clr_forms : OneOpForms .zero false true .clrR .clrM := ⟨fun _ => ⟨rfl, rfl⟩, fun _ => ⟨rfl, rfl⟩⟩

theorem not_forms : OneOpForms .notA true true .notR .notM := ⟨fun _ => ⟨rfl, rfl⟩, fun _ => ⟨rfl, rfl⟩⟩

theorem shl_forms : OneOpForms .shl true true .shlR .shlM := ⟨fun _ => ⟨rfl, rfl⟩, fun _ => ⟨rfl, rfl⟩⟩

theorem shr_forms : OneOpForms .shr true true .shrR .shrM := ⟨fun _ => ⟨rfl, rfl⟩, fun _ => ⟨rfl, rfl⟩⟩

theorem asr_forms : OneOpForms .asr true true .asrR .asrM := ⟨fun _ => ⟨rfl, rfl⟩, fun _ => ⟨rfl, rfl⟩⟩

theorem tst_forms : OneOpForms .passA true false .tstR .tstM := ⟨fun _ => ⟨rfl, rfl⟩, fun _ => ⟨rfl, rfl⟩⟩

/-! ### The obligations -/

/-- Settles O27: the forms of `ADD` and the sum, which takes no carry in. -/
theorem addResult : Obligations.AddResult :=
  ⟨fun _ _ _ _ _ => ⟨rfl, rfl, rfl, rfl, rfl, rfl⟩, add_forms.result fun x y _ => alu_add_eq x y false⟩

/-- Settles O28: the forms of `ADC` and the sum with the carry in. -/
theorem adcResult : Obligations.AdcResult :=
  ⟨fun _ _ _ _ _ => ⟨rfl, rfl, rfl, rfl, rfl, rfl⟩, adc_forms.result alu_addc_eq⟩

/-- Settles O29: the forms of `SUB` and the difference, which takes no borrow in. -/
theorem subResult : Obligations.SubResult :=
  ⟨fun _ _ _ _ _ => ⟨rfl, rfl, rfl, rfl, rfl, rfl⟩, sub_forms.result fun x y _ => alu_sub_eq x y false⟩

/-- Settles O30: the forms of `SBC` and the difference with the borrow in. -/
theorem sbcResult : Obligations.SbcResult :=
  ⟨fun _ _ _ _ _ => ⟨rfl, rfl, rfl, rfl, rfl, rfl⟩, sbc_forms.result alu_subc_eq⟩

/-- Settles O31: the forms of the three, whose ALU functions are the bitwise operations with carry 0. -/
theorem logicResults : Obligations.LogicResults :=
  ⟨⟨fun _ _ _ _ _ => ⟨rfl, rfl, rfl, rfl, rfl, rfl⟩, and_forms.result fun _ _ _ => rfl⟩,
    ⟨fun _ _ _ _ _ => ⟨rfl, rfl, rfl, rfl, rfl, rfl⟩, or_forms.result fun _ _ _ => rfl⟩,
    ⟨fun _ _ _ _ _ => ⟨rfl, rfl, rfl, rfl, rfl, rfl⟩, xor_forms.result fun _ _ _ => rfl⟩⟩

/-- Settles O32: the forms of `CMP`, which take the difference and write nothing back. -/
theorem cmpResult : Obligations.CmpResult := by
  refine ⟨fun _ _ _ _ _ => ⟨rfl, rfl, rfl, rfl, rfl, rfl⟩, fun s d r a b n => ?_⟩
  have hsub (x y : Byte) (_ : Bool) : alu .sub x y false = ⟨x - y, decide (x.toNat < y.toNat)⟩ := alu_sub_eq x y false
  exact ⟨(cmp_forms.rr d r).exec_eq hsub trivial trivial nofun,
    (cmp_forms.ri d n).exec_eq hsub trivial trivial nofun,
    fun hb => (cmp_forms.rm d b).exec_eq hsub trivial hb nofun,
    fun ha => (cmp_forms.mr a r).exec_eq hsub ha trivial nofun,
    fun ha hb => (cmp_forms.mm a b).exec_eq hsub ha hb nofun,
    fun ha => (cmp_forms.mi a n).exec_eq hsub ha trivial nofun,
    (cmp_forms.rm d b).raisesFor, (cmp_forms.mr a r).raisesFor, (cmp_forms.mm a b).raisesFor,
    (cmp_forms.mi a n).raisesFor⟩

/-- Settles O33: the forms of `INC` and `DEC`, and one more or one less as bytes. -/
theorem incDecResults : Obligations.IncDecResults :=
  ⟨⟨oneOpBytes_of_opUnary 0 (fun _ => rfl) fun _ => rfl, inc_forms.result fun x => alu_incA_eq x 0 false⟩,
    ⟨oneOpBytes_of_opUnary 1 (fun _ => rfl) fun _ => rfl, dec_forms.result fun x => alu_decA_eq x 0 false⟩⟩

/-- Settles O34: `CLR` reads nothing, so only its write can be refused; `NOT` by its complement. -/
theorem clrNotResults : Obligations.ClrNotResults := by
  refine ⟨oneOpBytes_of_opUnary 2 (fun _ => rfl) fun _ => rfl, fun s r a => ?clr,
    oneOpBytes_of_opUnary 3 (fun _ => rfl) fun _ => rfl, not_forms.result fun x => alu_notA_eq x 0 false⟩
  case clr =>
    have hzero (x : Byte) : alu .zero x 0#8 false = ⟨0, false⟩ := rfl
    obtain ⟨-, hraise⟩ := (clr_forms.mem a).raisesFor (s := s)
    exact ⟨(clr_forms.reg r).exec_eq hzero nofun fun _ => trivial,
      fun hw => (clr_forms.mem a).exec_eq hzero nofun fun _ => hw,
      fun hrefused => hraise nofun a rfl hrefused⟩

/-- Settles O35: the forms of the three shifts, and each shift on the number it works on. -/
theorem shiftResults : Obligations.ShiftResults :=
  ⟨⟨oneOpBytes_of_opUnary 4 (fun _ => rfl) fun _ => rfl, shl_forms.result fun x => alu_shl_eq x 0 false⟩,
    ⟨oneOpBytes_of_opUnary 5 (fun _ => rfl) fun _ => rfl, shr_forms.result fun x => alu_shr_eq x 0 false⟩,
    ⟨oneOpBytes_of_opUnary 6 (fun _ => rfl) fun _ => rfl, asr_forms.result fun x => alu_asr_eq x 0 false⟩⟩

/-- Settles O36: `TST` passes its operand to the flags, and only its read can be refused. -/
theorem tstResult : Obligations.TstResult := by
  refine ⟨oneOpBytes_of_opUnary 7 (fun _ => rfl) fun _ => rfl, fun s r a => ?_⟩
  have hpass (x : Byte) : alu .passA x 0#8 false = ⟨x, false⟩ := rfl
  obtain ⟨hraise, -⟩ := (tst_forms.mem a).raisesFor (s := s)
  exact ⟨(tst_forms.reg r).exec_eq hpass (fun _ => trivial) nofun,
    fun ha => (tst_forms.mem a).exec_eq hpass (fun _ => ha) nofun,
    fun hunreadable => hraise [] a [] rfl nofun hunreadable⟩

end Sys2Proof.Machine
end

section
/-! The bit instructions (44_bit_ops.md R250 to R253) by their bodies: one lemma says what a bit instruction answers with its
accesses allowed, and `State.raisesFor` says the rest. -/

namespace Sys2Proof.Machine

/-- An instruction is the bit body on `p` with mask `m`, in `len` bytes. -/
structure IsBitOp (fn : BitFn) (wb : Bool) (i : Instr) (p : Place) (m : Byte) (len : Nat) : Prop where
  body : bodyOf i = .bit fn wb p m
  length : i.length = len

section

variable {fn : BitFn} {wb : Bool} {i : Instr} {p : Place} {m : Byte} {len : Nat} {s : State}

/-- A bit instruction with its accesses allowed: the operand is read with the PC past the instruction, the result is stored
where it is written back, and the flags take it with CF = 0. -/
theorem IsBitOp.exec_eq {val : Byte → Byte → Byte} (h : IsBitOp fn wb i p m len)
    (hfn : ∀ x y, bitResult fn x y = ⟨val x y, false⟩)
    (hread : s.PlaceReadable p) (hwrite : wb = true → s.PlaceWritable p) :
    let t := s.setPc (s.pc + BitVec.ofNat 8 len)
    let v := val (t.placeValue p) m
    exec i s = .next ((if wb then t.putPlace p v else t).setResultFlags v false) := by
  obtain ⟨hbody, rfl⟩ := h
  refine exec_of_run ?_
  rw [hbody]
  refine bitOp_ok_iff.2 ⟨State.setPc_placeReadable.2 hread, fun hwb => State.setPc_placeWritable.2 (hwrite hwb), ?_⟩
  rw [State.commitFlags_eq, hfn]

/-- Its errors: the operand is read in every case, and stored where the result is written back. -/
theorem IsBitOp.raisesFor (h : IsBitOp fn wb i p m len) :
    s.RaisesFor i p.addr.toList (if wb then p.addr else none) := by
  have hraises := s.raisesFor (i := i) fun t ht => by cases ht ▸ h.body
  rwa [← operandReads_bodyOf, ← storeAddr_bodyOf, h.body] at hraises

end

/-- The two forms of a bit instruction (30_encoding.md R103, R111). -/
structure BitForms (fn : BitFn) (wb : Bool) (reg : Reg → Byte → Instr) (mem : Byte → Byte → Instr) : Prop where
  reg : ∀ r m, IsBitOp fn wb (reg r m) (.reg r) m 2
  mem : ∀ a m, IsBitOp fn wb (mem a m) (.mem a) m 3

/-- What a bit instruction that writes back does in its two forms follows from the forms and its bit function. -/
theorem BitForms.result {fn : BitFn} {reg : Reg → Byte → Instr} {mem : Byte → Byte → Instr} {val : Byte → Byte → Byte}
    (h : BitForms fn true reg mem) (hfn : ∀ x y, bitResult fn x y = ⟨val x y, false⟩) : BitResult reg mem val :=
  fun _ r a m =>
  ⟨(h.reg r m).exec_eq hfn trivial fun _ => trivial, fun ha hw => (h.mem a m).exec_eq hfn ha fun _ => hw,
    (h.mem a m).raisesFor⟩

theorem bits_forms : BitForms .set true .bitsR .bitsM := ⟨fun _ _ => ⟨rfl, rfl⟩, fun _ _ => ⟨rfl, rfl⟩⟩

theorem bitc_forms : BitForms .clear true .bitcR .bitcM := ⟨fun _ _ => ⟨rfl, rfl⟩, fun _ _ => ⟨rfl, rfl⟩⟩

theorem bitt_forms : BitForms .test false .bittR .bittM := ⟨fun _ _ => ⟨rfl, rfl⟩, fun _ _ => ⟨rfl, rfl⟩⟩

/-- Byte 0 of format BR is the operation's first byte 0 plus the register's field, and that of BM is 0x10 more than the
first. -/
theorem opBit_eq_add : ∀ k : BitVec 2,
    (∀ r : BitVec 2, opBit 0 k r = opBit 0 k 0 + (0#6 ++ r)) ∧ opBit 1 k 0 = opBit 0 k 0 + 0x10 := by
  decide

theorem bitBytes_of_opBit {reg : Reg → Byte → Instr} {mem : Byte → Byte → Instr} (k : BitVec 2)
    (hreg : ∀ r m, encode (reg r m) = [opBit 0 k r.toField, m]) (hmem : ∀ a m, encode (mem a m) = [opBit 1 k 0, a, m]) :
    BitBytes reg mem (opBit 0 k 0) := by
  obtain ⟨hfield, hform⟩ := opBit_eq_add k
  exact fun r a m => ⟨by rw [hreg, hfield, regByte], by rw [hmem, hform]⟩

/-- The bits outside the mask are those of its complement, which is the mask taken from 0xFF. -/
theorem bitResult_clear_eq (a m : Byte) : bitResult .clear a m = ⟨a &&& (0xFF#8 - m), false⟩ := by
  have hnot : ~~~m = 0xFF#8 - m := (BitVec.allOnes_sub_eq_not m).symm
  rw [← hnot, bitResult]

/-- Settles O37: the forms of `BITS` and `BITC`, and the bits of the mask set or cleared. -/
theorem bitsBitcResults : Obligations.BitsBitcResults :=
  ⟨⟨bitBytes_of_opBit 0 (fun _ _ => rfl) fun _ _ => rfl, bits_forms.result fun _ _ => rfl⟩,
    ⟨bitBytes_of_opBit 1 (fun _ _ => rfl) fun _ _ => rfl, bitc_forms.result bitResult_clear_eq⟩⟩

/-- Settles O38: `BITT` gives the masked bits to the flags, and only its read can be refused. -/
theorem bittResult : Obligations.BittResult := by
  refine ⟨bitBytes_of_opBit 2 (fun _ _ => rfl) fun _ _ => rfl, fun s r a m => ?_⟩
  have hmask (x y : Byte) : bitResult .test x y = ⟨x &&& y, false⟩ := rfl
  obtain ⟨hraise, -⟩ := (bitt_forms.mem a m).raisesFor (s := s)
  exact ⟨(bitt_forms.reg r m).exec_eq hmask trivial nofun, fun ha => (bitt_forms.mem a m).exec_eq hmask ha nofun,
    fun hunreadable => hraise [] a [] rfl nofun hunreadable⟩

end Sys2Proof.Machine
end

section
/-! The interrupt unit (60_exceptions.md R307 to R316): the samples, the selected source, the entry, the return from one, and
what becomes of a latched request. -/

namespace Sys2Proof.Machine

/-! ### The samples -/

theorem State.enabledEdge_iff (s : State) (i : Source) :
    s.enabledEdge i = true ↔ s.prev.get i = false ∧ s.sourceLevel i = true ∧ s.sourceEnabled i = true := by
  simp [State.enabledEdge, and_assoc]

@[simp] theorem State.sampleInputs_req_get (s : State) (i : Source) :
    s.sampleInputs.req.get i = (s.req.get i || s.enabledEdge i) :=
  SourceBits.get_tabulate _ i

@[simp] theorem State.sampleInputs_prev_get (s : State) (i : Source) : s.sampleInputs.prev.get i = s.sourceLevel i :=
  SourceBits.get_tabulate _ i

theorem State.sampleInputs_req_of_latched {s : State} {i : Source} (h : s.req.get i = true) :
    s.sampleInputs.req.get i = true := by
  simp [h]

/-- Settles O46: the levels and the enable bits are read off, and the latch and the previous sample are known bit by bit. -/
theorem inputSamples : Obligations.InputSamples := by
  intro s
  refine ⟨⟨rfl, rfl, rfl, rfl⟩, ⟨rfl, rfl, rfl, rfl⟩, fun i => ⟨?latch, s.sampleInputs_prev_get i⟩, rfl⟩
  rw [State.sampleInputs_req_get, Bool.or_eq_true, State.enabledEdge_iff]

/-! ### The selected source -/

theorem Source.index_lt (i : Source) : i.index < Source.byPriority.length := by cases i <;> decide

theorem Source.byPriority_index (i : Source) : Source.byPriority[i.index]'i.index_lt = i := by cases i <;> rfl

theorem Source.mem_byPriority (i : Source) : i ∈ Source.byPriority :=
  i.byPriority_index ▸ List.getElem_mem i.index_lt

/-- A place in the list of sources is the index of the source that stands there. -/
theorem Source.index_byPriority : ∀ k (hk : k < Source.byPriority.length), (Source.byPriority[k]).index = k := by
  decide

/-- The first source with a property is the one of lowest index that has it. -/
theorem Source.find_byPriority_eq_some_iff {p : Source → Bool} {i : Source} :
    Source.byPriority.find? p = some i ↔ p i = true ∧ ∀ j : Source, j.index < i.index → ¬ p j = true := by
  rw [List.find?_eq_some_iff_getElem]
  constructor
  · rintro ⟨hp, k, hk, rfl, hbefore⟩
    refine ⟨hp, fun j hj => ?_⟩
    rw [Source.index_byPriority] at hj
    simpa [Source.byPriority_index] using hbefore j.index hj
  · rintro ⟨hp, hbefore⟩
    refine ⟨hp, i.index, i.index_lt, i.byPriority_index, fun k hk => ?_⟩
    have hklt := hk.trans i.index_lt
    simpa using hbefore Source.byPriority[k] (by rwa [Source.index_byPriority k hklt])

/-- Settles O47: the search of the sources in priority order, which IEF allows. -/
theorem dueSource : Obligations.DueSource := by
  intro s
  unfold State.dueSource
  cases s.flags.ief with
  | false => simp
  | true =>
    refine ⟨?nothingDue, fun i => ?selected⟩
    case nothingDue => simp [List.find?_eq_none, Source.mem_byPriority]
    case selected => simp only [if_true, true_and, Source.find_byPriority_eq_some_iff, Bool.and_eq_true]

/-! ### The entry -/

theorem setPending_eq (misr : Byte) (i : Source) : setPending misr i = misr ||| BitVec.ofNat 8 (2 ^ (4 + i.index)) := by
  cases i <;> rfl

theorem setPending_getLsbD (misr : Byte) (i : Source) : (setPending misr i).getLsbD (4 + i.index) = true := by
  cases i <;> simp [setPending, Source.index]

theorem step_of_due {s : State} {i : Source} (hrun : s.run = .running) (hdue : s.sampleInputs.dueSource = some i) :
    step s = .next (s.sampleInputs.orRaise (s.sampleInputs.enterInterrupt i)) :=
  (step_of_running hrun).trans (stepRunning_of_due hdue)

/-- Settles O48: the entry answers or raises, by the push check, which the samples do not change. -/
theorem interruptEntry : Obligations.InterruptEntry := by
  intro s i hrun hdue
  rw [step_of_due hrun hdue]
  refine ⟨fun hpush => ?pushed, fun hpush => ?refused⟩
  case pushed =>
    rw [State.enterInterrupt_ok_iff (s := s.sampleInputs).2 ⟨hpush, rfl⟩, State.orRaise_ok, setPending_eq]
    simp [State.setPc, State.setSp, State.setReg, State.setIef, Config.isrVector]
  case refused => rw [State.enterInterrupt_error_iff (s := s.sampleInputs).2 ⟨hpush, rfl⟩]; rfl

/-! ### The return from an entry -/

/-- An entry whose push goes to RAM, with the store written out. -/
theorem State.enterInterrupt_of_ram {s t : State} {i : Source} (hram : region (s.sp - 1) = .ram)
    (h : s.enterInterrupt i = .ok t) :
    t = { s with
      regs := (s.regs.set .r4 (s.sp - 1)).set .r3 Config.isrVector
      flags := { s.flags with ief := false }
      ram := s.ram.write (s.sp - 1).toNat s.pc
      misr := setPending s.misr i
      req := s.req.set i false } := by
  obtain ⟨-, rfl⟩ := State.enterInterrupt_ok_iff.1 h
  rw [State.store_ram hram]
  rfl

theorem State.readable_of_ram (s : State) {a : Byte} (h : region a = .ram) : s.Readable a := by
  simp [State.Readable, h]

theorem State.busValue_of_ram (s : State) {a : Byte} (h : region a = .ram) : s.busValue a = s.ram.read a.toNat := by
  simp only [State.busValue, h]

/-- Settles O49: the pop reads the slot the entry pushed to, and what the return does not write is as the entry left it. -/
theorem returnRestoresEntry : Obligations.ReturnRestoresEntry := by
  rintro s t i ⟨hwf, -⟩ hslot hentry
  have hram := region_of_le hslot
  obtain rfl := State.enterInterrupt_of_ram hram hentry
  have hpopped : (s.ram.write (s.sp - 1).toNat s.pc).read (s.sp - 1).toNat = s.pc := by simp [Memory.read_write hwf]
  refine ⟨_, (retiResult _).2.1 (State.readable_of_ram _ hram), (State.busValue_of_ram _ hram).trans hpopped,
    BitVec.sub_add_cancel s.sp 1, rfl, rfl, setPending_getLsbD s.misr i, rfl, rfl, hpopped,
    fun b hb => Memory.read_write_ne _ _ hb.symm, fun r hr => ?reg⟩
  case reg =>
    cases r with
    | r3 => exact absurd rfl hr
    | r4 => exact BitVec.sub_add_cancel s.sp 1
    | _ => rfl

/-! ### The requests -/

theorem State.enterInterrupt_req {s t : State} {i : Source} (h : s.enterInterrupt i = .ok t) :
    t.req = s.req.set i false ∧ t.pc = 0x02#8 := by
  obtain ⟨-, rfl⟩ := State.enterInterrupt_ok_iff.1 h
  exact ⟨rfl, rfl⟩

theorem exec_req {i : Instr} {s t : State} (h : exec i s = .next t) : t.req = s.req := by
  obtain heff | ⟨e, rfl⟩ := exec_effect h
  · obtain ⟨-, hreq, -⟩ := heff.untouched
    exact hreq
  · rfl

/-- A step in `Running` leaves the requests as the samples latched them, but for the one whose interrupt it enters. -/
theorem stepRunning_req {s t : State} (h : stepRunning s = .next t) :
    t.req = s.sampleInputs.req ∨
      ∃ i, s.sampleInputs.dueSource = some i ∧ t.req = s.sampleInputs.req.set i false ∧ t.pc = 0x02#8 := by
  cases hdue : s.sampleInputs.dueSource with
  | some i =>
    cases (stepRunning_of_due hdue).symm.trans h
    cases hentry : s.sampleInputs.enterInterrupt i with
    | ok u => exact .inr ⟨i, rfl, State.enterInterrupt_req hentry⟩
    | error e => exact .inl rfl
  | none =>
    cases hfetch : s.sampleInputs.fetch with
    | error e =>
      cases (stepRunning_of_fetch_error hdue hfetch).symm.trans h
      exact .inl rfl
    | ok i => exact .inl (exec_req ((stepRunning_of_fetch_ok hdue hfetch).symm.trans h))

/-- Settles O50: the samples keep a latched request, and an entry clears its own source's alone. -/
theorem requestsStayLatched : Obligations.RequestsStayLatched := by
  intro s t i h hlatched
  have hsampled := State.sampleInputs_req_of_latched hlatched
  by_cases hrun : s.run = .running
  · obtain hreq | ⟨j, hdue, hreq, hpc⟩ := stepRunning_req ((step_of_running hrun).symm.trans h)
    · exact .inl (hreq ▸ hsampled)
    · by_cases hij : i = j
      · exact .inr ⟨hrun, hij ▸ hdue, hpc⟩
      · exact .inl (by rw [hreq, SourceBits.get_set_ne _ _ hij, hsampled])
  · cases (step_of_not_running hrun).symm.trans h
    exact .inl hlatched

end Sys2Proof.Machine
end

section
/-! Runtime errors (60_exceptions.md R302, R305): every instruction and every step answers a next state, and an instruction
completes when every access of its body is allowed. -/

namespace Sys2Proof.Machine

theorem exec_answers (i : Instr) (s : State) : ∃ t, exec i s = .next t := ⟨_, exec_eq_instruction i s⟩

theorem stepRunning_answers (s : State) : ∃ t, stepRunning s = .next t := by
  cases hdue : s.sampleInputs.dueSource with
  | some i => exact ⟨_, stepRunning_of_due hdue⟩
  | none =>
    cases hfetch : s.sampleInputs.fetch with
    | error e => exact ⟨_, stepRunning_of_fetch_error hdue hfetch⟩
    | ok i =>
      rw [stepRunning_of_fetch_ok hdue hfetch]
      exact exec_answers i _

theorem step_answers (s : State) : ∃ t, step s = .next t := by
  by_cases hrun : s.run = .running
  · rw [step_of_running hrun]
    exact stepRunning_answers s
  · exact ⟨s, step_of_not_running hrun⟩

/-- Settles O9: outside `Running` a step answers its own state; in it, what its interrupt entry, fetch or instruction does. -/
theorem everyStepAnswers : Obligations.EveryStepAnswers := ⟨step_answers, exec_answers⟩

/-! ### Completion -/

/-- A body completes when its reads, its data write and its push are allowed. -/
theorem Body.exists_run_ok {b : Body} {s : State} (hreads : ∀ a ∈ b.operandReads s, s.Readable a)
    (hwrite : ∀ a, b.storeAddr s = some a → (∀ c, b ≠ .call c) → s.Writable a)
    (hpush : ∀ c, b = .call c → s.PushAllowed) : ∃ t, b.run s = .ok t := by
  have writable {p : Place} (h : ∀ a, p.addr = some a → s.Writable a) : s.PlaceWritable p := by
    cases p with
    | reg r => trivial
    | mem a => exact h a rfl
  cases b with
  | two fn useCf wb dst src =>
    have hdst := State.placeReadable_iff.2 fun a ha => hreads a (List.mem_append_left _ ha)
    have hsrc := State.operandReadable_iff.2 fun a ha => hreads a (List.mem_append_right _ ha)
    refine ⟨_, twoOp_ok_iff.2 ⟨hdst, hsrc, fun hwb => writable fun a ha => hwrite a ?_ nofun, rfl⟩⟩
    exact (if_pos hwb).trans ha
  | one fn rd wb p =>
    refine ⟨_, oneOp_ok_iff.2 ⟨fun hrd => ?_, fun hwb => writable fun a ha => hwrite a ?_ nofun, rfl⟩⟩
    · subst hrd
      exact State.placeReadable_iff.2 hreads
    · exact (if_pos hwb).trans ha
  | bit fn wb p m =>
    refine ⟨_, bitOp_ok_iff.2 ⟨State.placeReadable_iff.2 hreads, fun hwb => writable fun a ha => hwrite a ?_ nofun, rfl⟩⟩
    exact (if_pos hwb).trans ha
  | move dst src =>
    exact ⟨_, moveOp_ok_iff.2 ⟨State.operandReadable_iff.2 hreads, writable fun a ha => hwrite a ha nofun, rfl⟩⟩
  | call c => exact ⟨_, callOp_ok_iff.2 ⟨hpush c rfl, rfl⟩⟩
  | ret => exact ⟨_, returnOp_ok_iff.2 ⟨hreads _ List.mem_cons_self, rfl⟩⟩
  | reti => exact ⟨_, State.returnFromInterrupt_ok_iff.2 ⟨hreads _ List.mem_cons_self, rfl⟩⟩
  | jump | ldsp | nop | stop | ei | di => exact ⟨_, rfl⟩

/-- A completed instruction leaves the run state, but for `STOP`. -/
theorem run_of_bodyOf_run {i : Instr} {s t : State} (h : (bodyOf i).run s = .ok t) :
    t.run = if i = .stop then .stopped else s.run := by
  split
  · subst i
    cases h
    rfl
  · next hi => exact (Body.run_effect h).run.resolve_right fun ⟨hstop, _⟩ => hi (eq_stop_of_bodyOf hstop)

theorem operandReads_bodyOf_setPc (i : Instr) (s : State) (v : Byte) :
    (bodyOf i).operandReads (s.setPc v) = operandReads s i :=
  ((bodyOf i).operandReads_setPc s v).trans (operandReads_bodyOf s i)

theorem storeAddr_bodyOf_setPc (i : Instr) (s : State) (v : Byte) :
    (bodyOf i).storeAddr (s.setPc v) = storeAddr s i :=
  ((bodyOf i).storeAddr_setPc s v).trans (storeAddr_bodyOf s i)

/-- Settles O18: the errors are those of the body's accesses, and with all of them allowed the body completes. -/
theorem firstErrorIsReported : Obligations.FirstErrorIsReported := by
  intro i s
  refine ⟨fun before a after hsplit hbefore ha => ?unreadable, fun hreads => ⟨fun a hstore hcall ha => ?unwritable,
    fun c hc hpush => ?overflow, fun hpush hwrite => ?completes⟩⟩
  case unreadable =>
    exact exec_of_run_error
      (Body.run_error_of_first_unreadable ((operandReads_bodyOf_setPc i s _).trans hsplit) hbefore ha)
  case unwritable => exact (s.raisesFor hcall).2 hreads a hstore ha
  case overflow =>
    subst hc
    exact exec_of_run_error (callOp_error_iff.2 ⟨hpush, rfl⟩)
  case completes =>
    have hreads' := (operandReads_bodyOf_setPc i s (s.pc + BitVec.ofNat 8 i.length)).symm ▸ hreads
    obtain ⟨t, ht⟩ := Body.exists_run_ok hreads'
      (fun a ha hcall => hwrite a (storeAddr_bodyOf_setPc i s _ ▸ ha) fun c hc => hcall c (hc ▸ rfl))
      (fun c hc => hpush ⟨c, eq_call_of_bodyOf hc⟩)
    have hrun := run_of_bodyOf_run ht
    exact ⟨t, exec_of_run ht, hrun⟩

end Sys2Proof.Machine
end

section
/-! What a reset leaves (70_reset_and_hazards.md R341, R342; 10_state.md R38): either kind is `State.afterReset` of the RAM the
kind leaves, and the first sample after one finds no request, no enable bit and IEF clear. -/

namespace Sys2Proof.Machine

/-- The RAM a reset of the kind leaves (R341). -/
def ResetKind.ramOf (s : State) : ResetKind → Memory
  | .keep => s.ram
  | .reload => s.boot.image

theorem hostReset_eq_afterReset (k : ResetKind) (s : State) :
    hostReset k s = State.afterReset s.boot (k.ramOf s) s.inputs := by
  cases k <;> rfl

@[simp] theorem RegBlock.reset_get (r : Reg) : RegBlock.reset.get r = 0 := by cases r <;> rfl

@[simp] theorem PortBytes.zero_get (p : IoPort) : PortBytes.zero.get p = 0 := by cases p <;> rfl

@[simp] theorem SourceBits.zero_get (i : Source) : SourceBits.zero.get i = false := by cases i <;> rfl

/-- Settles O51: the fields of `State.afterReset`, with the RAM by the kind. -/
theorem resetValues : Obligations.ResetValues := by
  intro s k
  rw [hostReset_eq_afterReset k s]
  refine ⟨RegBlock.reset_get, rfl, rfl, rfl, rfl, rfl, rfl, PortBytes.zero_get,
    fun i => ⟨SourceBits.zero_get i, SourceBits.zero_get i⟩, rfl, rfl, rfl, rfl, ?ram, rfl⟩
  case ram => cases k <;> rfl

/-! ### The first sample -/

theorem State.dueSource_of_ief_clear {s : State} (h : s.flags.ief = false) : s.dueSource = none :=
  if_neg (ne_true_of_eq_false h)

/-- A level that the previous sample saw makes no edge, whatever is enabled. -/
theorem State.enabledEdge_of_prev {s : State} {i : Source} (h : s.prev.get i = s.sourceLevel i) :
    s.enabledEdge i = false := by
  simp [State.enabledEdge, h]

theorem State.enabledEdge_of_misr_zero {s : State} (h : s.misr = 0) (i : Source) : s.enabledEdge i = false := by
  simp [State.enabledEdge, State.sourceEnabled, h]

/-- Settles O53: no source is enabled at the first sample, and the sample remembers every level. -/
theorem noInterruptAfterReset : Obligations.NoInterruptAfterReset := by
  intro s k inputs
  rw [hostReset_eq_afterReset k s]
  intro t
  refine ⟨State.dueSource_of_ief_clear rfl, fun i => ⟨?latch, t.sampleInputs_prev_get i, fun m => ?edge⟩⟩
  case latch =>
    have hreq : t.req.get i = false := SourceBits.zero_get i
    rw [State.sampleInputs_req_get, hreq, State.enabledEdge_of_misr_zero rfl, Bool.or_false]
  case edge => exact State.enabledEdge_of_prev (t.sampleInputs_prev_get i)

end Sys2Proof.Machine
end

section
/-! The canonical form of RAM and image under the host's actions (20_memory.md R52, 70_reset_and_hazards.md R345): each half
cycle keeps RAM canonical as each step does, and whatever predicate every half cycle or action keeps, every run of cycles or
session keeps. -/

namespace Sys2Proof.Machine

/-! ### The half cycles -/

theorem except_map_eq_ok {ε α β : Type} {x : Except ε α} {f : α → β} {b : β} :
    x.map f = .ok b ↔ ∃ a, x = .ok a ∧ f a = b := by
  cases x <;> simp [Except.map]

theorem readHalf_ram {p : MicroParams} {s t : State} (h : readHalf p s = .ok t) : t.ram = s.ram := by
  by_cases hill : illFormed p (s.controlWord p) = true
  · cases (readHalf_of_illFormed hill).symm.trans h
  · obtain ⟨d, -, rfl⟩ := except_map_eq_ok.1 ((readHalf_of_wellFormed rfl hill).symm.trans h)
    rfl

@[simp] theorem commitRegister_ram (w : ControlWord) (s : State) : (commitRegister w s).ram = s.ram := by
  unfold commitRegister; split <;> rfl

@[simp] theorem commitMicroFlags_ram (w : ControlWord) (s : State) : (commitMicroFlags w s).ram = s.ram := by
  rw [commitMicroFlags_eq]

@[simp] theorem commitHalt_ram (halt : Bool) (s : State) : (commitHalt halt s).ram = s.ram := by
  rw [commitHalt_eq]

theorem commitBus_ram_wf {w : ControlWord} {s t : State} (h : commitBus w s = .ok t) (hwf : s.ram.wf = true) :
    t.ram.wf = true := by
  have ht := commitBus_ok_iff.1 h
  split at ht
  · obtain ⟨-, rfl⟩ := ht
    exact State.store_wf hwf _ _
  · rwa [ht]

theorem commitFetch_ram_wf {p : MicroParams} {slice : BitVec 2} {s t : State} (h : commitFetch p slice s = .ok t)
    (hwf : s.ram.wf = true) : t.ram.wf = true := by
  obtain ⟨i, -, hentry⟩ | ⟨-, -, -, rfl⟩ := commitFetch_ok_cases h
  · exact enterInterrupt_ram_wf hentry hwf
  · exact hwf

theorem commitHalf_of_reserved {p : MicroParams} {s : State} (h : p.macCode (s.controlWord p).mac = none) :
    commitHalf p s = .error (.illegalMicroWord s.micro.mp) := by
  simp only [commitHalf, h]

/-- A commit half stores by its bus write or by the push of an interrupt entry, and by nothing else. -/
theorem commitHalf_ram_wf {p : MicroParams} {s t : State} (h : commitHalf p s = .ok t) (hwf : s.ram.wf = true) :
    t.ram.wf = true := by
  cases hk : p.macCode (s.controlWord p).mac with
  | none => cases (commitHalf_of_reserved hk).symm.trans h
  | some k =>
    by_cases hfetch : k = .fetch
    · subst k
      obtain ⟨u, hu, rfl⟩ := except_map_eq_ok.1 ((commitHalf_of_fetch rfl hk).symm.trans h)
      simpa using commitFetch_ram_wf hu hwf
    · obtain ⟨u, hu, rfl⟩ := except_map_eq_ok.1 ((commitHalf_of_kind rfl hk hfetch).symm.trans h)
      simpa using commitBus_ram_wf hu hwf

theorem tickHalfCycle_ram_wf (p : MicroParams) {s : State} (hwf : s.ram.wf = true) :
    (tickHalfCycle p s).ram.wf = true := by
  by_cases hrun : s.run = .running
  · cases hphase : s.micro.phase with
    | read =>
      rw [tickHalfCycle_of_read hrun hphase]
      exact State.orRaise_ram_wf hwf fun t ht => (readHalf_ram ht).symm ▸ hwf
    | commit =>
      rw [tickHalfCycle_of_commit hrun hphase]
      exact State.orRaise_ram_wf hwf fun t ht => commitHalf_ram_wf ht hwf
  · rwa [tickHalfCycle_of_not_running p hrun]

/-! ### Runs of cycles and sessions -/

/-- What every half cycle keeps, any number of full cycles keeps. -/
theorem runCycles_induction {P : State → Prop} {p : MicroParams} (half : ∀ s, P s → P (tickHalfCycle p s)) (n : Nat)
    {s : State} (hs : P s) : P (runCycles p n s) := by
  induction n generalizing s with
  | zero => exact hs
  | succ n ih =>
    rw [runCycles]
    split
    · exact ih (half _ (half _ hs))
    · exact hs

/-- What every host action keeps, every session keeps. -/
theorem session_induction {P : State → Prop} {p : MicroParams} (act : ∀ s x, P s → P (s.act p x))
    (as : List HostAction) {s : State} (hs : P s) : P (s.session p as) := by
  induction as generalizing s with
  | nil => exact hs
  | cons x as ih => exact ih (act s x hs)

/-! ### The host's actions -/

theorem hostContinue_of_stopped {s : State} (h : s.run = .stopped) : hostContinue s = { s with run := .running } := by
  simp only [hostContinue, h]
  rfl

theorem hostContinue_of_not_stopped {s : State} (h : s.run ≠ .stopped) : hostContinue s = s := by
  obtain hr | hr | ⟨e, hr⟩ := s.run.cases_eq
  · simp only [hostContinue, hr]
  · exact absurd hr h
  · simp only [hostContinue, hr]

theorem tickHalfCycle_inv (p : MicroParams) (s : State) (h : s.Inv) : (tickHalfCycle p s).Inv := by
  obtain ⟨hram, himage⟩ := h
  refine ⟨tickHalfCycle_ram_wf p hram, ?_⟩
  rwa [(tickHalfCycle_sameSetup p s).boot_eq]

theorem afterStep_step_inv {s : State} (h : s.Inv) : (afterStep s (step s)).Inv := by
  obtain ⟨t, ht⟩ := step_answers s
  rw [ht]
  exact stepKeepsMemoryForm s t h ht

theorem hostReset_inv (k : ResetKind) {s : State} (h : s.Inv) : (hostReset k s).Inv := by
  obtain ⟨hram, himage⟩ := h
  cases k with
  | keep => exact ⟨hram, himage⟩
  | reload => exact ⟨himage, himage⟩

theorem hostContinue_inv {s : State} (h : s.Inv) : (hostContinue s).Inv := by
  by_cases hstop : s.run = .stopped
  · rw [hostContinue_of_stopped hstop]
    exact h
  · rwa [hostContinue_of_not_stopped hstop]

theorem act_inv (p : MicroParams) (s : State) (x : HostAction) (h : s.Inv) : (s.act p x).Inv := by
  cases x with
  | setInputs inputs => exact h
  | step => exact afterStep_step_inv h
  | tickHalf => exact tickHalfCycle_inv p s h
  | tickFull => exact tickHalfCycle_inv p _ (tickHalfCycle_inv p s h)
  | runCycles n => exact runCycles_induction (tickHalfCycle_inv p) n h
  | reset k => exact hostReset_inv k h
  | resume => exact hostContinue_inv h
  | observe => exact h

/-- Settles O12: every host action keeps the invariant, and so does every session. -/
theorem sessionsKeepMemoryForm : Obligations.SessionsKeepMemoryForm := fun p as _ h =>
  session_induction (act_inv p) as h

end Sys2Proof.Machine
end

section
/-! The run state under the host's actions (70_reset_and_hazards.md R343, 60_exceptions.md R303, R304). -/

namespace Sys2Proof.Machine

theorem act_reset_run (p : MicroParams) (s : State) (k : ResetKind) : (s.act p (.reset k)).run = .running :=
  congrArg State.run (hostReset_eq_afterReset k s)

/-- Outside `Running`, only a reset and `continue` can change the run state. -/
theorem act_run_of_not_running (p : MicroParams) {s : State} {x : HostAction} (h : s.run ≠ .running)
    (hreset : ∀ k, x ≠ .reset k) (hresume : x ≠ .resume) : (s.act p x).run = s.run := by
  cases x with
  | setInputs inputs => rfl
  | step => simp only [State.act, step_of_not_running h, afterStep]
  | tickHalf => simp only [State.act, tickHalfCycle_of_not_running p h]
  | tickFull => simp only [State.act, tickFullCycle_of_not_running p h]
  | runCycles n => simp only [State.act, runCycles_of_not_running p n h]
  | reset k => exact absurd rfl (hreset k)
  | resume => exact absurd rfl hresume
  | observe => rfl

/-- Settles O52: `continue` by whether the run state is `Stopped`, the other actions by what they can do outside `Running`. -/
theorem runStateTransitions : Obligations.RunStateTransitions := by
  refine ⟨fun s => ⟨hostContinue_of_stopped, hostContinue_of_not_stopped⟩, fun p s x =>
    ⟨fun k hx => hx ▸ act_reset_run p s k, fun hreset => ⟨fun e hrun => ?halted, fun hrun => ?stopped⟩⟩⟩
  case halted =>
    by_cases hx : x = .resume
    · rw [hx, State.act, hostContinue_of_not_stopped (by simp [hrun]), hrun]
    · rw [act_run_of_not_running p (by simp [hrun]) hreset hx, hrun]
  case stopped =>
    by_cases hx : x = .resume
    · rw [if_pos hx, hx, State.act, hostContinue_of_stopped hrun]
    · rw [if_neg hx, act_run_of_not_running p (by simp [hrun]) hreset hx, hrun]

end Sys2Proof.Machine
end

section
/-! The depth of the stack (70_reset_and_hazards.md R344, 20_memory.md R66, R67, R69): pushes are allowed while the SP is above the
lowest address of the stack region, and not at it. -/

namespace Sys2Proof.Machine

theorem stackSize_bytes_le (z : StackSize) : z.bytes ≤ 64 := by cases z <;> decide

/-- The lowest address of the stack region (20_memory.md R69); 0xF0 when the region is empty. -/
def BootConfig.stackBottom (b : BootConfig) : Nat := 0xF0 - b.stackSize.bytes

theorem BootConfig.le_stackBottom (b : BootConfig) : 0xB0 ≤ b.stackBottom := by
  have := stackSize_bytes_le b.stackSize
  unfold BootConfig.stackBottom
  omega

theorem State.pushAllowed_of_stackBottom_lt {s : State} (hlow : s.boot.stackBottom < s.sp.toNat)
    (htop : s.sp.toNat ≤ 0xF0) : s.PushAllowed := by
  have hslot : (s.sp - 1).toNat = s.sp.toNat - 1 := by bv_omega
  refine s.pushAllowed_iff.2 (.inr ((s.boot.inStack_iff _).2 ?_))
  rw [hslot]
  exact ⟨Nat.le_sub_one_of_lt hlow, by omega⟩

theorem State.not_pushAllowed_at_stackBottom {s : State} (hsize : s.boot.stackSize ≠ .s0)
    (hsp : s.sp.toNat = s.boot.stackBottom) : ¬ s.PushAllowed := by
  have hpos := s.boot.le_stackBottom
  have hslot : (s.sp - 1).toNat = s.sp.toNat - 1 := by bv_omega
  rw [State.pushAllowed_iff, BootConfig.inStack_iff, hslot, hsp]
  rintro (h | ⟨hlow, -⟩)
  · exact hsize h
  · have hbottom : s.boot.stackBottom = 0xF0 - s.boot.stackSize.bytes := rfl
    omega

theorem State.pushAll_cons_of_ok {s t : State} {v : Byte} (h : s.push v = .ok t) (vs : List Byte) :
    s.pushAll (v :: vs) = t.pushAll vs := by
  rw [State.pushAll, h]
  rfl

theorem State.pushAll_concat (s : State) (vs : List Byte) (v : Byte) :
    s.pushAll (vs ++ [v]) = s.pushAll vs >>= fun t => t.push v := by
  induction vs generalizing s with
  | nil => cases h : s.push v <;> simp [State.pushAll, h, bind, Except.bind]
  | cons w vs ih => cases h : s.push w <;> simp [State.pushAll, h, ih, bind, Except.bind]

/-- Bytes for which the stack region has room below the SP are pushed, and the SP moves down by their number. -/
theorem State.pushAll_of_room (vs : List Byte) {s : State} (hroom : s.boot.stackBottom + vs.length ≤ s.sp.toNat)
    (htop : s.sp.toNat ≤ 0xF0) :
    ∃ t, s.pushAll vs = .ok t ∧ t.sp = s.sp - BitVec.ofNat 8 vs.length ∧ t.boot = s.boot := by
  induction vs generalizing s with
  | nil => exact ⟨s, rfl, by simp, rfl⟩
  | cons v vs ih =>
    rw [List.length_cons] at hroom ⊢
    have hpush := State.push_ok_iff (v := v).2 ⟨State.pushAllowed_of_stackBottom_lt (by omega) htop, rfl⟩
    have hslot : (s.sp - 1).toNat = s.sp.toNat - 1 := by bv_omega
    rw [State.pushAll_cons_of_ok hpush]
    obtain ⟨t, ht, hsp, hboot⟩ := ih (s := (s.store (s.sp - 1) v).setSp (s.sp - 1))
      (by simp only [State.setSp_boot, State.store_boot, State.setSp_sp]; omega)
      (by simp only [State.setSp_sp]; omega)
    refine ⟨t, ht, ?_, by simpa using hboot⟩
    rw [hsp, State.setSp_sp]
    bv_omega

/-- Settles O54: `STACKSIZE` bytes are the room below 0xF0, and after as many pushes the SP is at the bottom of the region. -/
theorem stackDepth : Obligations.StackDepth := by
  intro s vs hsp hsize
  have hbytes := stackSize_bytes_le s.boot.stackSize
  have hbottom : s.boot.stackBottom = 0xF0 - s.boot.stackSize.bytes := rfl
  have htop : s.sp.toNat = 0xF0 := congrArg BitVec.toNat hsp
  refine ⟨fun hfits => ?fits, fun hlength => ?overflow⟩
  case fits =>
    obtain ⟨t, ht, htsp, -⟩ := State.pushAll_of_room vs (s := s) (by omega) (by omega)
    exact ⟨t, ht, hsp ▸ htsp⟩
  case overflow =>
    obtain rfl | ⟨ws, v, rfl⟩ := vs.eq_nil_or_concat'
    · simp at hlength
    · rw [List.length_append, List.length_singleton] at hlength ⊢
      obtain ⟨t, ht, htsp, htboot⟩ := State.pushAll_of_room ws (s := s) (by omega) (by omega)
      rw [hsp] at htsp
      have hend : t.sp.toNat = t.boot.stackBottom := by rw [htboot, htsp]; bv_omega
      have hfull := State.not_pushAllowed_at_stackBottom (htboot ▸ hsize) hend
      rw [State.pushAll_concat, ht]
      refine State.push_error_iff.2 ⟨hfull, ?_⟩
      rw [htsp]
      congr 1
      bv_omega

end Sys2Proof.Machine
end
